-- ==== Sys2Proof/Word.lean ====
section
/-! DEFINITION. The word types of GFPE (00_scope.md R5, R6) and the plainest helper over a 256-entry table. -/

namespace Sys2Proof

/-- One field element, `W_ELEM = 8` bits (00_scope.md R5; 41_field.md R120). -/
abbrev Byte := BitVec 8

/-- One bus word or command word, `W_BUS = W_CMD = 32` bits (00_scope.md R5). -/
abbrev Word := BitVec 32

/-- A byte offset in the register window, `W_ADDR = 15` bits (00_scope.md R5; 20_memory.md R60). -/
abbrev Offset := BitVec 15

/-- 256 entries of 8 bits: LOG, ALOG (10_state.md R26, R27) and the cells of one polynomial register (R22). -/
abbrev Table := Vector Byte 256

/-- The table whose entry at index j is `f j`. -/
def tabulate (f : Nat → Byte) : Table := ⟨((List.range 256).map f).toArray, by simp⟩

end Sys2Proof
end

