-- ==== Sys2Proof/Syntax.lean ====
section
/-! DEFINITION. The commands of GFPE-1: one constructor per row of spec/opcode_table.json
(30_encoding.md R97), and the pseudo-instructions as other names for them (R102). -/

namespace Sys2Proof

/-- A register number 0..7 (30_encoding.md R94). Which file it names, S or P, is fixed by the command's role. -/
abbrev RegIdx := Fin 8

/-- The complete set of commands (30_encoding.md R97), operands in the order of R101: destination first. -/
inductive Instr where
  /-- NOP (41_field.md R125). -/
  | nop
  /-- GADD Sd, Sa, Sb (41_field.md R126). -/
  | gadd (d a b : RegIdx)
  /-- GMUL Sd, Sa, Sb (41_field.md R127). -/
  | gmul (d a b : RegIdx)
  /-- GMULR Sd, Sa, Sb (41_field.md R128). -/
  | gmulr (d a b : RegIdx)
  /-- GDIV Sd, Sa, Sb (41_field.md R129). -/
  | gdiv (d a b : RegIdx)
  /-- GPOW Sd, Sa, #n (41_field.md R130). -/
  | gpow (d a : RegIdx) (n : BitVec 16)
  /-- PTRIM Pd, Pa (42_polynomial.md R160). -/
  | ptrim (d a : RegIdx)
  /-- PADD Pd, Pa, Pb (42_polynomial.md R161). -/
  | padd (d a b : RegIdx)
  /-- PMUL Pd, Pa, Pb (42_polynomial.md R162). -/
  | pmul (d a b : RegIdx)
  /-- PDIV Pq, Pr, Pa, Pb: q is field D, r is field E (42_polynomial.md R163). -/
  | pdiv (q r a b : RegIdx)
  /-- PMOD Pd, Pa, Pb (42_polynomial.md R164). -/
  | pmod (d a b : RegIdx)
  /-- PEVAL Sd, Pa, Sb (42_polynomial.md R165). -/
  | peval (d a b : RegIdx)
  /-- PDER Pd, Pa (42_polynomial.md R166). -/
  | pder (d a : RegIdx)
  /-- RSGEN Pd, #n (43_rs_derivations.md R191). -/
  | rsgen (d : RegIdx) (n : BitVec 16)
  /-- SYND Pd, Pa, #t (43_rs_derivations.md R193). -/
  | synd (d a : RegIdx) (t : BitVec 16)
  /-- ROOTS Pa (43_rs_derivations.md R195). -/
  | roots (a : RegIdx)
  deriving DecidableEq, Repr

/-- GSUB (30_encoding.md R102). -/
abbrev Pseudo.gsub (d a b : RegIdx) : Instr := .gadd d a b
/-- PSUB (30_encoding.md R102). -/
abbrev Pseudo.psub (d a b : RegIdx) : Instr := .padd d a b
/-- GCLR (30_encoding.md R102). -/
abbrev Pseudo.gclr (d : RegIdx) : Instr := .gadd d d d
/-- GMOV (30_encoding.md R102). -/
abbrev Pseudo.gmov (d a : RegIdx) : Instr := .gpow d a 1
/-- GSQR (30_encoding.md R102). -/
abbrev Pseudo.gsqr (d a : RegIdx) : Instr := .gmul d a a
/-- GINV (30_encoding.md R102). -/
abbrev Pseudo.ginv (d a : RegIdx) : Instr := .gpow d a 254
/-- PCLR (30_encoding.md R102). -/
abbrev Pseudo.pclr (d : RegIdx) : Instr := .padd d d d
/-- PMOV (30_encoding.md R102). -/
abbrev Pseudo.pmov (d a : RegIdx) : Instr := .ptrim d a
/-- PSQR (30_encoding.md R102). -/
abbrev Pseudo.psqr (d a : RegIdx) : Instr := .pmul d a a

end Sys2Proof
end

