-- ==== Sys2Proof/WellFormed.lean ====
section
/-! DEFINITION. Which commands are legal as syntax. A register number is 0..7 and an immediate 16 bits by their types
(30_encoding.md R94, R96); the one check left is PDIV's (R99). -/

namespace Sys2Proof

/-- PDIV's two destinations must differ (30_encoding.md R99: "PDIV with `D == E` ... is illegal"); every other
command has no constraint among its operands. -/
def Instr.wellFormed : Instr → Bool
  | .nop => true
  | .gadd _ _ _ => true
  | .gmul _ _ _ => true
  | .gmulr _ _ _ => true
  | .gdiv _ _ _ => true
  | .gpow _ _ _ => true
  | .ptrim _ _ => true
  | .padd _ _ _ => true
  | .pmul _ _ _ => true
  | .pdiv q r _ _ => q != r
  | .pmod _ _ _ => true
  | .peval _ _ _ => true
  | .pder _ _ => true
  | .rsgen _ _ => true
  | .synd _ _ _ => true
  | .roots _ => true

/-- A legal command. -/
abbrev WellFormed (i : Instr) : Prop := i.wellFormed = true

end Sys2Proof
end

