-- ==== Sys2Proof/Decode.lean ====
section
/-! DEFINITION. Decoding of a command word, in the order of 30_encoding.md R100, total on every word and refusing by
name; and after it the encoder, from the formats of R91 to R93 and the opcodes of R97. -/

namespace Sys2Proof

/-- Why a word names no command. All four are the one error EILL on the device (30_encoding.md R100). -/
inductive DecodeError where
  /-- OPC is not in the table of R97 (R98). -/
  | unknownOpcode
  /-- A must-be-zero field has a nonzero bit (R95). -/
  | nonzeroUnusedField
  /-- A register field holds 8..15 (R94). -/
  | registerOutOfRange
  /-- PDIV with D = E (R99). -/
  | sameDestinations
  deriving DecidableEq, Repr

/-! ## Fields of a word (30_encoding.md R90 to R92) -/

/-- OPC, bits 31:24. -/
def opcField (w : Word) : Byte := w.extractLsb' 24 8
/-- D, bits 23:20. -/
def dField (w : Word) : BitVec 4 := w.extractLsb' 20 4
/-- A, bits 19:16. -/
def aField (w : Word) : BitVec 4 := w.extractLsb' 16 4
/-- B, bits 15:12. -/
def bField (w : Word) : BitVec 4 := w.extractLsb' 12 4
/-- E, bits 11:8. -/
def eField (w : Word) : BitVec 4 := w.extractLsb' 8 4
/-- Z, bits 7:0. -/
def zField (w : Word) : Byte := w.extractLsb' 0 8
/-- IMM, bits 15:0. -/
def immField (w : Word) : BitVec 16 := w.extractLsb' 0 16

/-- A field the command does not use (30_encoding.md R95). -/
def unused {n : Nat} (f : BitVec n) : Except DecodeError Unit :=
  if f = 0 then .ok () else .error .nonzeroUnusedField

/-- A field that names a register (30_encoding.md R94). -/
def register (f : BitVec 4) : Except DecodeError RegIdx :=
  if h : f.toNat < 8 then .ok ⟨f.toNat, h⟩ else .error .registerOutOfRange

/-! ## Operand shapes of R97's rows -/

/-- Format N: bits 23:0 all 0 (30_encoding.md R93). -/
def decodeN (i : Instr) (w : Word) : Except DecodeError Instr := do
  unused (w.extractLsb' 0 24)
  return i

/-- Format R with D, A and B. -/
def decodeDAB (mk : RegIdx → RegIdx → RegIdx → Instr) (w : Word) : Except DecodeError Instr := do
  unused (eField w)
  unused (zField w)
  let d ← register (dField w)
  let a ← register (aField w)
  let b ← register (bField w)
  return mk d a b

/-- Format R with D, A, B and E (PDIV), D and E different (30_encoding.md R99). -/
def decodeDABE (mk : RegIdx → RegIdx → RegIdx → RegIdx → Instr) (w : Word) : Except DecodeError Instr := do
  unused (zField w)
  let d ← register (dField w)
  let a ← register (aField w)
  let b ← register (bField w)
  let e ← register (eField w)
  if d = e then .error .sameDestinations else return mk d e a b

/-- Format R with D and A. -/
def decodeDA (mk : RegIdx → RegIdx → Instr) (w : Word) : Except DecodeError Instr := do
  unused (bField w)
  unused (eField w)
  unused (zField w)
  let d ← register (dField w)
  let a ← register (aField w)
  return mk d a

/-- Format R with A only (ROOTS). -/
def decodeA (mk : RegIdx → Instr) (w : Word) : Except DecodeError Instr := do
  unused (dField w)
  unused (bField w)
  unused (eField w)
  unused (zField w)
  let a ← register (aField w)
  return mk a

/-- Format I with D, A and IMM. -/
def decodeDAI (mk : RegIdx → RegIdx → BitVec 16 → Instr) (w : Word) : Except DecodeError Instr := do
  let d ← register (dField w)
  let a ← register (aField w)
  return mk d a (immField w)

/-- Format I with D and IMM, A = 0 (RSGEN). -/
def decodeDI (mk : RegIdx → BitVec 16 → Instr) (w : Word) : Except DecodeError Instr := do
  unused (aField w)
  let d ← register (dField w)
  return mk d (immField w)

/-- The command a word names, or why it names none (30_encoding.md R97 to R100): first the opcode, then the
must-be-zero fields, then the register fields, then PDIV's D = E. -/
def decodeWord (w : Word) : Except DecodeError Instr :=
  match opcField w with
  | 0x00#8 => decodeN .nop w
  | 0x10#8 => decodeDAB .gadd w
  | 0x11#8 => decodeDAB .gmul w
  | 0x12#8 => decodeDAB .gmulr w
  | 0x13#8 => decodeDAB .gdiv w
  | 0x14#8 => decodeDAI .gpow w
  | 0x20#8 => decodeDA .ptrim w
  | 0x21#8 => decodeDAB .padd w
  | 0x22#8 => decodeDAB .pmul w
  | 0x23#8 => decodeDABE .pdiv w
  | 0x24#8 => decodeDAB .pmod w
  | 0x25#8 => decodeDAB .peval w
  | 0x26#8 => decodeDA .pder w
  | 0x30#8 => decodeDI .rsgen w
  | 0x31#8 => decodeDAI .synd w
  | 0x32#8 => decodeA .roots w
  | _ => .error .unknownOpcode

/-- The word of the table's numbering: bit 0 least significant, bits from nbits up 0. -/
def tableWord (nbits w : Nat) : Word := BitVec.ofNat 32 (w % 2 ^ nbits)

/-- The instruction the decoder reads from a word of spec/opcode_table.json. Every command is one 32-bit word
(30_encoding.md R90). -/
def decodeTableWord (nbits w : Nat) : Option Instr :=
  match decodeWord (tableWord nbits w) with
  | .ok i => some i
  | .error _ => none

/-! ## Encoding -/

/-- A register number in a 4-bit field (30_encoding.md R94). -/
def regBits (r : RegIdx) : BitVec 4 := BitVec.ofNat 4 r.val

/-- Format R: OPC, D, A, B, E and Z = 0 (30_encoding.md R91). -/
def formatR (opc : Byte) (d a b e : BitVec 4) : Word := opc ++ d ++ a ++ b ++ e ++ 0#8

/-- Format I: OPC, D, A and IMM (30_encoding.md R92). -/
def formatI (opc : Byte) (d a : BitVec 4) (imm : BitVec 16) : Word := opc ++ d ++ a ++ imm

/-- The word of a command (30_encoding.md R97). -/
def encode : Instr → Word
  | .nop => 0x00000000
  | .gadd d a b => formatR 0x10 (regBits d) (regBits a) (regBits b) 0
  | .gmul d a b => formatR 0x11 (regBits d) (regBits a) (regBits b) 0
  | .gmulr d a b => formatR 0x12 (regBits d) (regBits a) (regBits b) 0
  | .gdiv d a b => formatR 0x13 (regBits d) (regBits a) (regBits b) 0
  | .gpow d a n => formatI 0x14 (regBits d) (regBits a) n
  | .ptrim d a => formatR 0x20 (regBits d) (regBits a) 0 0
  | .padd d a b => formatR 0x21 (regBits d) (regBits a) (regBits b) 0
  | .pmul d a b => formatR 0x22 (regBits d) (regBits a) (regBits b) 0
  | .pdiv q r a b => formatR 0x23 (regBits q) (regBits a) (regBits b) (regBits r)
  | .pmod d a b => formatR 0x24 (regBits d) (regBits a) (regBits b) 0
  | .peval d a b => formatR 0x25 (regBits d) (regBits a) (regBits b) 0
  | .pder d a => formatR 0x26 (regBits d) (regBits a) 0 0
  | .rsgen d n => formatI 0x30 (regBits d) 0 n
  | .synd d a t => formatI 0x31 (regBits d) (regBits a) t
  | .roots a => formatR 0x32 0 (regBits a) 0 0

end Sys2Proof
end

