-- ==== Sys2Proof/Config.lean ====
section
/-! DEFINITION. What an implementation fixes (00_scope.md R5) and the free values the spec leaves open
(93_implementation_defined.md part 2). A free value is an opaque constant: nothing can evaluate it and no
proof can know it. -/

namespace Sys2Proof

/-- `RED_POLY` = 0x11D masked to 8 bits (00_scope.md R2, R5; 41_field.md R121). -/
def Config.redPolyLow : Byte := 0x1D

/-- `GEN`: the generator element of the log tables (00_scope.md R2, R5). -/
def Config.gen : Byte := 2

/-- `ORDER`: the modulus of every log-index sum (00_scope.md R5). -/
def Config.order : Nat := 255

/-- `PCAP`: coefficient cells per polynomial register (00_scope.md R5; 10_state.md R22). -/
def Config.pcap : Nat := 256

/-- `ID_VALUE`, ASCII "GFPE" (10_state.md R36). -/
def Config.idValue : Word := 0x47465045

/-- The size of the register window in bytes (20_memory.md R60). -/
def Config.windowSize : Nat := 0x8000

/-- FREE VALUE (U1; 20_memory.md R72): what the k-th draw gives a read of a data register or a table while BUSY.
DESIGN CHOICE in form only (log entry 5); safe: no proof can know the value. -/
opaque Config.freeWord : Nat → Word

/-- FREE VALUE (U2; 10_state.md R39): the LOG contents from the hardware reset that is draw k until the bootstrap
ends. DESIGN CHOICE (log entry 6). -/
opaque Config.freeLog : Nat → Table

/-- FREE VALUE (U2; 10_state.md R39): the ALOG contents from the hardware reset that is draw k until the bootstrap
ends. DESIGN CHOICE (log entry 6). -/
opaque Config.freeAlog : Nat → Table

/-- OPEN parameter `BUS_ERR_RESP` (U6; 60_exceptions.md R224): whether the platform signals a bus error on the bus
too. Left open: no proof can know it; safe (log entry 8). -/
opaque Config.busErrResp : Bool

end Sys2Proof
end

