-- ==== Sys2Proof/Machine/State.lean ====
section
/-! DEFINITION. The state of GFPE as plain data (10_state.md R20 to R39), the reasons a step can stop, and the state
after a hardware reset. Three fields are the model's own, not the spec's: schedule, resp and draws. -/

namespace Sys2Proof.Machine

/-- Why the machine would stop with a fault: never. Every error of GFPE is recorded in STATUS and ERRINFO and the
machine goes on (60_exceptions.md R228, R229), so there is no constructor (log entry 16; exact, safe). -/
inductive Fault where
  deriving DecidableEq, Repr

/-- Why the model would give a command no meaning. -/
inductive Refusal where
  /-- The arm of exec for an instruction that has no meaning yet. Raised by no arm of this model; safe. -/
  | notModelled (mnemonic : String)
  deriving DecidableEq, Repr

/-- The errors of GFPE (60_exceptions.md R221). -/
inductive ErrKind where
  /-- Illegal command word. -/
  | eill
  /-- Scalar divisor 0 (GDIV). -/
  | edivz
  /-- Polynomial divisor [] (PDIV, PMOD). -/
  | epdivz
  /-- Result longer than 256 coefficients (PMUL, RSGEN, SYND). -/
  | ecap
  /-- Bus write of a value outside the register's range. -/
  | erange
  /-- Bus write to CMD, S, LEN or CELL while BUSY. -/
  | ebusy
  /-- Bus access of no register, of a wrong width or misaligned, or write to a read-only register. -/
  | eacc
  deriving DecidableEq, Repr

/-- One polynomial register: LEN (9 bits, legal 0..256) and 256 coefficient cells, cell j the coefficient of x^j
(10_state.md R22). -/
structure PolyReg where
  len   : BitVec 9
  cells : Table
  deriving DecidableEq, Repr

/-- The discrete-log and antilog tables (10_state.md R26, R27). -/
structure Tables where
  log  : Table
  alog : Table
  deriving DecidableEq, Repr

/-- The stored bits of CTRL (10_state.md R33); the rest of the word reads 0. -/
structure Ctrl where
  ieDone : Bool
  ieErr  : Bool
  deriving DecidableEq, Repr

/-- The stored bits of STATUS (10_state.md R34). BUSY is not stored: it is `phase != IDLE` (R37). -/
structure Status where
  ready   : Bool
  done    : Bool
  err     : Bool
  zero    : Bool
  emult   : Bool
  errcode : Byte
  deriving DecidableEq, Repr

/-- The engine phase (10_state.md R37). -/
inductive Phase where
  /-- Bootstrap in progress. -/
  | boot
  /-- Waiting for a CMD write. -/
  | idle
  /-- Command word w accepted and not yet completed. -/
  | exec (w : Word)
  deriving DecidableEq, Repr

/-- A host bus transaction (00_scope.md R8; 20_memory.md R60): a byte offset, a width in bytes and, for a write, the
32 bits on the data lines. -/
inductive Txn where
  | read (addr : Offset) (width : Nat)
  | write (addr : Offset) (width : Nat) (value : Word)
  deriving DecidableEq, Repr

/-- Who moves next (10_state.md R20; 20_memory.md R74): the host with one transaction, the engine, or the platform
with the reset input. -/
inductive Turn where
  | bus (t : Txn)
  | engine
  | hardReset
  deriving DecidableEq, Repr

/-- What a transaction answered: the data of a read (none for a write), and whether the platform signals a bus error
(60_exceptions.md R224, `BUS_ERR_RESP`). -/
structure BusResp where
  data  : Option Word
  error : Bool
  deriving DecidableEq, Repr

/-- The state of the machine (10_state.md R20). -/
structure State where
  /-- S0..S7 (R21). -/
  sregs    : Vector Byte 8
  /-- P0..P7 (R22). -/
  pregs    : Vector PolyReg 8
  /-- LOG and ALOG (R26, R27). -/
  tables   : Tables
  /-- ROOTMAP, bit v for field element v (R29). -/
  rootmap  : BitVec 256
  /-- ROOTCNT (R30). -/
  rootcnt  : BitVec 9
  /-- LASTCMD (R32). -/
  lastcmd  : Word
  /-- CTRL (R33). -/
  ctrl     : Ctrl
  /-- STATUS (R34). -/
  status   : Status
  /-- ERRINFO (R35). -/
  errinfo  : Word
  /-- The engine phase (R37). -/
  phase    : Phase
  /-- MODEL's own (log entry 2): the turns to come, in their total order (20_memory.md R74). -/
  schedule : List Turn
  /-- MODEL's own (log entry 3): the answer of the last bus transaction. -/
  resp     : Option BusResp
  /-- MODEL's own (log entry 4): the number of the next free value. -/
  draws    : Nat
  deriving DecidableEq, Repr

/-- The zero polynomial in a cleared register: LEN 0, every cell 0 (10_state.md R25, R39). -/
def PolyReg.clear : PolyReg := { len := 0, cells := Vector.replicate 256 0 }

/-- The state right after a hardware reset (10_state.md R39; 70_reset_and_hazards.md R260). The tables are
unspecified there: free values (log entry 6). The model's own three fields: log entries 2 to 4. -/
def State.reset : State :=
  { sregs    := Vector.replicate 8 0
    pregs    := Vector.replicate 8 PolyReg.clear
    tables   := { log := Config.freeLog 0, alog := Config.freeAlog 0 }
    rootmap  := 0
    rootcnt  := 0
    lastcmd  := 0
    ctrl     := { ieDone := false, ieErr := false }
    status   := { ready := false, done := false, err := false, zero := false, emult := false, errcode := 0 }
    errinfo  := 0
    phase    := .boot
    schedule := []
    resp     := none
    draws    := 1 }

end Sys2Proof.Machine
end

