-- ==== Sys2Proof/Machine/Flags.lean ====
section
/-! DEFINITION. The one condition flag, STATUS.ZERO (10_state.md R38): what each kind of result gives it; and the STATUS
word, the CTRL word and the IRQ output computed from the stored bits. -/

namespace Sys2Proof.Machine

/-- ZERO of a scalar result: `S[d] == 0` (10_state.md R38). -/
def zeroOfElement (r : Byte) : Bool := r == 0

/-- ZERO of a polynomial result: `LEN == 0` (10_state.md R38). -/
def zeroOfPoly (p : List Byte) : Bool := p.length == 0

/-- ZERO of ROOTS: `ROOTCNT == 0` (10_state.md R38). -/
def zeroOfCount (n : Nat) : Bool := n == 0

/-- STATUS.BUSY: `phase != IDLE` (10_state.md R37). -/
def State.busy (s : State) : Bool := s.phase != .idle

/-- The STATUS word: BUSY, READY, DONE, ERR, ZERO, EMULT in bits 0 to 5, ERRCODE in bits 15:8, reserved bits 0
(10_state.md R34). -/
def State.statusWord (s : State) : Word :=
  0#16 ++ s.status.errcode ++ 0#2 ++ BitVec.ofBool s.status.emult ++ BitVec.ofBool s.status.zero
    ++ BitVec.ofBool s.status.err ++ BitVec.ofBool s.status.done ++ BitVec.ofBool s.status.ready
    ++ BitVec.ofBool s.busy

/-- The CTRL word: SRST (bit 0) reads 0, IE_DONE bit 1, IE_ERR bit 2, reserved bits 0 (10_state.md R33). -/
def State.ctrlWord (s : State) : Word :=
  0#29 ++ BitVec.ofBool s.ctrl.ieErr ++ BitVec.ofBool s.ctrl.ieDone ++ 0#1

/-- The IRQ output (60_exceptions.md R230). -/
def State.irq (s : State) : Bool :=
  (s.ctrl.ieDone && s.status.done) || (s.ctrl.ieErr && s.status.err)

/-- The 8-bit code of an error (60_exceptions.md R221). -/
def ErrKind.code : ErrKind → Byte
  | .eill => 0x01
  | .edivz => 0x02
  | .epdivz => 0x03
  | .ecap => 0x04
  | .erange => 0x05
  | .ebusy => 0x06
  | .eacc => 0x07

end Sys2Proof.Machine
end

