-- ==== Sys2Proof/Machine/Field.lean ====
section
/-! DEFINITION. The field functions of GF(256) (41_field.md R120 to R124) and the tables the bootstrap builds
(70_reset_and_hazards.md R261). -/

namespace Sys2Proof.Machine

/-- Field addition and subtraction (41_field.md R120). -/
def gadd (a b : Byte) : Byte := a ^^^ b

/-- The "carry-aware left shift" of the reference multiply: 8 bits kept, reduced by XOR with 0x11D masked to 8 bits
when bit 7 was carried out (41_field.md R121). -/
def shiftReduce (a : Byte) : Byte :=
  if a.getLsbD 7 then (a <<< 1) ^^^ Config.redPolyLow else a <<< 1

/-- The remaining rounds of the reference multiply, with the accumulator p (41_field.md R121). -/
def slowmulRounds : Nat → Byte → Byte → Byte → Byte
  | 0, _, _, p => p
  | n + 1, a, b, p => slowmulRounds n (shiftReduce a) (b >>> 1) (if b.getLsbD 0 then p ^^^ a else p)

/-- Reference multiplication: 8 rounds, b scanned from bit 0, a shifted (41_field.md R121). -/
def slowmul (a b : Byte) : Byte := slowmulRounds 8 a b 0

/-! ## The tables -/

/-- The values of `a` at the start of the next n iterations of the bootstrap loop and after the last of them, from the
present one: each iteration multiplies by the element 2 with the reference multiply (70_reset_and_hazards.md R261). -/
def bootElements : Nat → Byte → List Byte
  | 0, a => [a]
  | n + 1, a => a :: bootElements n (slowmul a Config.gen)

/-- What the writes `LOG[a] <- i` of the iterations whose elements are listed, the first numbered i, leave in entry v
when it held l before (70_reset_and_hazards.md R261). -/
def bootLogEntry (v : Byte) : List Byte → Nat → Nat → Nat
  | [], _, l => l
  | a :: as, i, l => bootLogEntry v as (i + 1) (if a = v then i else l)

/-- The 256 values `a` takes in the bootstrap: iterations 0..254, and 1 again after the last. -/
def bootSequence : List Byte := bootElements Config.order 1

/-- The tables as the bootstrap leaves them, written entry by entry: `ALOG[i]` is the element of iteration i, and
entry 255 the value `a` has after the loop; `LOG[v]` is what iterations 0..254 leave there, and 0 for v = 0
(70_reset_and_hazards.md R261; 10_state.md R26, R27). DEDUCED (log entry 7): every entry is written by the loop, so no
earlier content is left. -/
def builtTables : Tables :=
  let seq := bootSequence
  { log  := tabulate fun v => BitVec.ofNat 8 (bootLogEntry (BitVec.ofNat 8 v) (seq.take Config.order) 0 0)
    alog := tabulate fun i => seq.getD i 0 }

/-- `LOG[v]` as a number (10_state.md R26). -/
def Tables.logAt (t : Tables) (v : Byte) : Nat := (t.log.toList.getD v.toNat 0).toNat

/-- `ALOG[i]` (10_state.md R27). Every use has i in 0..254 once the tables are built; an index past the table, which
no run reaches, reads 0 (log entry 13). -/
def Tables.alogAt (t : Tables) (i : Nat) : Byte := t.alog.toList.getD i 0

/-- Table multiplication (41_field.md R122). -/
def gmul (t : Tables) (a b : Byte) : Byte :=
  if a = 0 ∨ b = 0 then 0 else t.alogAt ((t.logAt a + t.logAt b) % Config.order)

/-- Division, for a nonzero divisor b (41_field.md R123): the log-index difference is an integer in -254..254,
normalised by adding 255. GDIV tests b = 0 before it calls this, and polynomial division never passes 0
(log entry 13). -/
def gdiv (t : Tables) (a b : Byte) : Byte :=
  if a = 0 then 0
  else
    let d : Int := (t.logAt a : Int) - (t.logAt b : Int)
    t.alogAt (if d < 0 then d + Config.order else d).toNat

/-- Exponentiation by a non-negative integer, the product exact before the reduction (41_field.md R124). -/
def gpow (t : Tables) (a : Byte) (n : Nat) : Byte :=
  if a = 0 then 0
  else if n = 1 then a
  else t.alogAt ((t.logAt a * n) % Config.order)

end Sys2Proof.Machine
end

