-- ==== Sys2Proof/Machine/Poly.lean ====
section
/-! DEFINITION. Polynomials as lists of coefficients, lowest power first (00_scope.md R10), and the polynomial functions
of 42_polynomial.md R150 to R155. -/

namespace Sys2Proof.Machine

/-- A polynomial value: index = power (00_scope.md R10). -/
abbrev Poly := List Byte

/-- Canonical form: trailing zero coefficients dropped (10_state.md R23; 42_polynomial.md R150). -/
def canon (l : Poly) : Poly := l.rdropWhile (· == 0)

/-- A polynomial in canonical form (42_polynomial.md R150). -/
abbrev Canonical (p : Poly) : Prop := canon p = p

/-- `p[j]`, reading 0 for j ≥ |p| (00_scope.md R10). -/
def coeff (p : Poly) (j : Nat) : Byte := p.getD j 0

/-- The leading coefficient of a nonzero polynomial (00_scope.md R10). -/
def leading (p : Poly) : Byte := p.getLastD 0

/-- The elementwise sum, the shorter list padded with zeros, not yet trimmed (42_polynomial.md R151). -/
def sumRaw : Poly → Poly → Poly
  | [], ys => ys
  | x :: xs, [] => x :: xs
  | x :: xs, y :: ys => gadd x y :: sumRaw xs ys

/-- Addition, and subtraction (42_polynomial.md R151). -/
def padd (a b : Poly) : Poly := canon (sumRaw a b)

/-- The convolution, not yet trimmed: row j of the product is `a[j] · b`, placed j powers up and accumulated by field
addition (42_polynomial.md R152). -/
def convolve (t : Tables) : Poly → Poly → Poly
  | [], _ => []
  | x :: xs, b => sumRaw (b.map (gmul t x)) (0 :: convolve t xs b)

/-- Multiplication (42_polynomial.md R152): [] when either operand is [], else |a| + |b| - 1 coefficients, trimmed. -/
def pmul (t : Tables) (a b : Poly) : Poly :=
  if a.length = 0 ∨ b.length = 0 then [] else canon (convolve t a b)

/-- The loop of evaluation over the coefficients still to come, with the running power pw and the sum acc
(42_polynomial.md R153). -/
def pevalLoop (t : Tables) (x : Byte) : Poly → Byte → Byte → Byte
  | [], _, acc => acc
  | c :: cs, pw, acc => pevalLoop t x cs (gmul t pw x) (gadd acc (gmul t c pw))

/-- Evaluation at x: the running power starts at the element 1, also for x = 0 (42_polynomial.md R153;
90_conflicts.md C1, C3). -/
def peval (t : Tables) (p : Poly) (x : Byte) : Byte := pevalLoop t x p 1 0

/-- Formal derivative: coefficient i moves to power i - 1 when i is odd and gives 0 when i is even; the constant term
contributes nothing (42_polynomial.md R154). -/
def pder (p : Poly) : Poly :=
  canon ((List.range (p.length - 1)).map fun k => if (k + 1) % 2 = 1 then coeff p (k + 1) else 0)

/-- The monomial `v · x^k` (42_polynomial.md R155). -/
def monomial (k : Nat) (v : Byte) : Poly := List.replicate k 0 ++ [v]

/-- The passes of Euclidean division by b with leading coefficient c, on quotient q and remainder r: while
deg(r) ≥ deg(b) (42_polynomial.md R155). b is not [], so deg(r) ≥ deg(b) is |r| ≥ |b| and r = [] stops the loop. The
first argument bounds the passes (log entry 12): each pass lowers deg(r). -/
def pdivLoop (t : Tables) (b : Poly) (c : Byte) : Nat → Poly → Poly → Poly × Poly
  | 0, q, r => (q, r)
  | fuel + 1, q, r =>
    if b.length ≤ r.length then
      let s := monomial (r.length - b.length) (gdiv t (leading r) c)
      pdivLoop t b c fuel (padd q s) (padd r (pmul t s b))
    else (q, r)

/-- Euclidean division of a by b ≠ []: quotient and remainder (42_polynomial.md R155). At most |a| passes. -/
def pdivmod (t : Tables) (a b : Poly) : Poly × Poly := pdivLoop t b (leading b) a.length [] a

end Sys2Proof.Machine
end

