-- ==== Sys2Proof/Machine/Operands.lean ====
section
/-! DEFINITION. Every operand form a command has (30_encoding.md R94, R96; 00_scope.md R7): a scalar register, the value
of a polynomial register, an immediate; and the register a polynomial is written as. -/

namespace Sys2Proof.Machine

/-- The value of a polynomial register: canon of its first LEN cells; cells from LEN up are never part of it
(10_state.md R23). -/
def PolyReg.value (r : PolyReg) : Poly := canon (r.cells.toList.take r.len.toNat)

/-- The register after an engine write of the polynomial p, |p| ≤ 256: LEN = |p|, cell j = p[j], cells from |p| up
cleared (10_state.md R24). -/
def PolyReg.ofPoly (p : Poly) : PolyReg :=
  { len := BitVec.ofNat 9 p.length, cells := tabulate (coeff p) }

/-- `S[i]` (00_scope.md R7; 10_state.md R21). -/
def State.sreg (s : State) (i : RegIdx) : Byte := s.sregs[i]

/-- `P[i]` (00_scope.md R7; 10_state.md R23). -/
def State.poly (s : State) (i : RegIdx) : Poly := (s.pregs[i]).value

/-- The immediate: `zext(w[15:0])`, not sign-extended, scaled or shifted (30_encoding.md R96). -/
def immediate (imm : BitVec 16) : Nat := imm.toNat

end Sys2Proof.Machine
end

