-- ==== Sys2Proof/Machine/Rs.lean ====
section
/-! DEFINITION. The Reed–Solomon derivation functions (43_rs_derivations.md R190, R192, R194). -/

namespace Sys2Proof.Machine

/-- `∏_{i=1..n} (x + 2^i)`, computed from [1] by one factor after another (43_rs_derivations.md R190). -/
def generator (t : Tables) : Nat → Poly
  | 0 => [1]
  | n + 1 => pmul t (generator t n) [gpow t Config.gen (n + 1), 1]

/-- The syndromes S_1..S_t of p as a polynomial: element i - 1 is `p(2^i)` (43_rs_derivations.md R192). -/
def syndromes (t : Tables) (p : Poly) (n : Nat) : Poly :=
  canon ((List.range n).map fun k => peval t p (gpow t Config.gen (k + 1)))

/-- Every one of the 256 elements at which p evaluates to zero, each once (43_rs_derivations.md R194). -/
def roots (t : Tables) (p : Poly) : List Byte :=
  ((List.range 256).map (BitVec.ofNat 8)).filter fun v => peval t p v == 0

/-- The 256-bit map with bit v set for each element v of the list (10_state.md R29; 43_rs_derivations.md R195). -/
def rootBits (r : List Byte) : BitVec 256 := r.foldl (fun m v => m ||| (1#256 <<< v.toNat)) 0

/-- The number of 1 bits of a map (10_state.md R30). -/
def countBits (m : BitVec 256) : Nat := ((List.range 256).filter fun v => m.getLsbD v).length

end Sys2Proof.Machine
end

