-- ==== Sys2Proof/Machine/Ops.lean ====
section
/-! DEFINITION. The named operations over the registers that commands, the bus and the engine share: register writes,
recording an error (60_exceptions.md R222), the acceptance and completion of a command (30_encoding.md R105, R107),
the bootstrap and the two resets (70_reset_and_hazards.md R260 to R262). -/

namespace Sys2Proof.Machine

/-- `S[i] <- v` (00_scope.md R7). -/
def State.setSreg (s : State) (i : RegIdx) (v : Byte) : State := { s with sregs := s.sregs.set i v }

/-- Polynomial register i replaced whole. -/
def State.setPreg (s : State) (i : RegIdx) (r : PolyReg) : State := { s with pregs := s.pregs.set i r }

/-- `P[i] <- p`: an engine write (10_state.md R24). -/
def State.setPoly (s : State) (i : RegIdx) (p : Poly) : State := s.setPreg i (PolyReg.ofPoly p)

/-- ROOTMAP and ROOTCNT fully rewritten from a root set (43_rs_derivations.md R195). -/
def State.setRoots (s : State) (r : List Byte) : State :=
  { s with rootmap := rootBits r, rootcnt := BitVec.ofNat 9 r.length }

/-- `STATUS.ZERO <- z` (10_state.md R38). -/
def State.setZero (s : State) (z : Bool) : State := { s with status := { s.status with zero := z } }

/-- `raise E(info)`: the first error since ERR was last clear is recorded, a later one only sets EMULT
(60_exceptions.md R222; 00_scope.md R9). This is all GFPE has in place of taking an exception (R229). -/
def State.raise (s : State) (e : ErrKind) (info : Word) : State :=
  { s with
    status := if s.status.err then { s.status with emult := true }
              else { s.status with err := true, errcode := e.code }
    errinfo := if s.status.err then s.errinfo else info }

/-- The host's acknowledgement of errors, in place of a return from an exception (60_exceptions.md R231): ERR,
ERRCODE and ERRINFO are cleared together. -/
def State.clearErr (s : State) : State :=
  { s with status := { s.status with err := false, errcode := 0 }, errinfo := 0 }

/-! ## A command's life -/

/-- Acceptance of a command word in IDLE (30_encoding.md R105). -/
def State.accept (s : State) (w : Word) : State :=
  { s with lastcmd := w, status := { s.status with done := false }, phase := .exec w }

/-- Completion: phase IDLE and DONE set (30_encoding.md R107). -/
def State.complete (s : State) : State :=
  { s with status := { s.status with done := true }, phase := .idle }

/-- The end of a command that raised an error: the error is recorded with the command word, nothing else is written
(30_encoding.md R107; 60_exceptions.md R223). -/
def State.failCommand (s : State) (e : ErrKind) (w : Word) : State := (s.raise e w).complete

/-- The end of a command with a scalar result. -/
def State.finishScalar (s : State) (d : RegIdx) (r : Byte) : State :=
  ((s.setSreg d r).setZero (zeroOfElement r)).complete

/-- The end of a command with one polynomial result. -/
def State.finishPoly (s : State) (d : RegIdx) (p : Poly) : State :=
  ((s.setPoly d p).setZero (zeroOfPoly p)).complete

/-! ## Bootstrap and resets -/

/-- The bootstrap as one step: the tables built, READY set, phase IDLE (70_reset_and_hazards.md R261, R270). -/
def State.bootstrap (s : State) : State :=
  { s with tables := builtTables, status := { s.status with ready := true }, phase := .idle }

/-- Hardware reset (70_reset_and_hazards.md R260): every piece of the device's state at its reset value, whatever the
engine was doing; the tables unspecified again, a fresh draw. The model's own fields go on. -/
def State.hardReset (s : State) : State :=
  { State.reset with
    tables := { log := Config.freeLog s.draws, alog := Config.freeAlog s.draws }
    schedule := s.schedule
    resp := s.resp
    draws := s.draws + 1 }

/-- Soft reset (70_reset_and_hazards.md R262): registers and STATUS to their reset values, a running command
abandoned; the tables, READY and a bootstrap in progress are kept. -/
def State.softReset (s : State) : State :=
  { s with
    sregs := Vector.replicate 8 0
    pregs := Vector.replicate 8 PolyReg.clear
    rootmap := 0
    rootcnt := 0
    lastcmd := 0
    ctrl := { ieDone := false, ieErr := false }
    status := { ready := s.status.ready, done := false, err := false, zero := false, emult := false, errcode := 0 }
    errinfo := 0
    phase := match s.phase with
      | .boot => .boot
      | .idle => .idle
      | .exec _ => .idle }

/-! ## The schedule (the model's own) -/

/-- The state with its first turn taken off the schedule. -/
def State.popTurn (s : State) : State := { s with schedule := s.schedule.tail }

/-- The state in which the engine moves next: an empty schedule already says so. -/
def State.engineNext (s : State) : State :=
  { s with schedule := match s.schedule with
      | [] => []
      | t :: q => .engine :: t :: q }

/-- The state an accepted CMD write of w leaves, with the engine to move next. Where the bootstrap has not run, it runs
first: no command is accepted before it (30_encoding.md R105; 70_reset_and_hazards.md R264). Log entry 1. -/
def State.loadCommand (s : State) (w : Word) : State :=
  ((match s.phase with
    | .boot => s.bootstrap
    | .idle => s
    | .exec _ => s).accept w).engineNext

end Sys2Proof.Machine
end

