-- ==== Sys2Proof/Machine/Bus.lean ====
section
/-! DEFINITION. The register window and the host's bus transactions (20_memory.md R60 to R73). -/

namespace Sys2Proof.Machine

/-- What a word-aligned offset of the window names (20_memory.md R61). -/
inductive Target where
  | id
  | ctrl
  | status
  | cmd
  | errinfo
  | rootcnt
  | sreg (i : RegIdx)
  | rootmap (k : Fin 8)
  | len (i : RegIdx)
  | cell (p : RegIdx) (j : Fin 256)
  | log (v : Byte)
  | alog (i : Byte)
  | reserved
  deriving DecidableEq, Repr

/-- The address map (20_memory.md R61), for a word-aligned offset. -/
def targetOf (addr : Offset) : Target :=
  let n := addr.toNat
  if n = 0x0000 then .id
  else if n = 0x0004 then .ctrl
  else if n = 0x0008 then .status
  else if n = 0x000C then .cmd
  else if n = 0x0010 then .errinfo
  else if n = 0x0014 then .rootcnt
  else if n < 0x0020 then .reserved
  else if n < 0x0040 then .sreg (Fin.ofNat 8 ((n - 0x20) / 4))
  else if n < 0x0060 then .rootmap (Fin.ofNat 8 ((n - 0x40) / 4))
  else if n < 0x0080 then .len (Fin.ofNat 8 ((n - 0x60) / 4))
  else if n < 0x1000 then .reserved
  else if n < 0x3000 then .cell (Fin.ofNat 8 ((n - 0x1000) / 0x400)) (Fin.ofNat 256 ((n - 0x1000) % 0x400 / 4))
  else if n < 0x4000 then .reserved
  else if n < 0x4400 then .log (BitVec.ofNat 8 ((n - 0x4000) / 4))
  else if n < 0x4800 then .alog (BitVec.ofNat 8 ((n - 0x4400) / 4))
  else .reserved

/-- The targets whose read while BUSY is unspecified (20_memory.md R72). -/
def Target.isData : Target → Bool
  | .id => false
  | .ctrl => false
  | .status => false
  | .cmd => false
  | .errinfo => false
  | .rootcnt => true
  | .sreg _ => true
  | .rootmap _ => true
  | .len _ => true
  | .cell _ _ => true
  | .log _ => true
  | .alog _ => true
  | .reserved => false

/-- The 32-bit word a target holds (20_memory.md R61, R65 to R70); a reserved offset reads 0 (R71). -/
def State.regWord (s : State) : Target → Word
  | .id => Config.idValue
  | .ctrl => s.ctrlWord
  | .status => s.statusWord
  | .cmd => s.lastcmd
  | .errinfo => s.errinfo
  | .rootcnt => s.rootcnt.setWidth 32
  | .sreg i => (s.sreg i).setWidth 32
  | .rootmap k => s.rootmap.extractLsb' (32 * k.val) 32
  | .len i => (s.pregs[i]).len.setWidth 32
  | .cell p j => ((s.pregs[p]).cells[j]).setWidth 32
  | .log v => (s.tables.log[v.toNat]'v.isLt).setWidth 32
  | .alog i => (s.tables.alog[i.toNat]'i.isLt).setWidth 32
  | .reserved => 0

/-- A transaction that is not one aligned 32-bit word (20_memory.md R62). The width is in bytes. -/
def badAccess (addr : Offset) (width : Nat) : Bool := width != 4 || addr.extractLsb' 0 2 != 0

/-- A byte offset as an ERRINFO value (60_exceptions.md R221). -/
def offsetInfo (addr : Offset) : Word := addr.setWidth 32

/-- The transaction's answer, given whether it raised a bus error (60_exceptions.md R224; log entries 3, 8). -/
def State.respond (s : State) (data : Option Word) (faulted : Bool) : State :=
  { s with resp := some { data := data, error := faulted && Config.busErrResp } }

/-- A read that faults: the error is recorded and 0 returned (20_memory.md R62, R71; 60_exceptions.md R224). -/
def State.readFault (s : State) (addr : Offset) : State :=
  (s.raise .eacc (offsetInfo addr)).respond (some 0) true

/-- A write that faults: the error is recorded and nothing else changes (60_exceptions.md R224). -/
def State.writeFault (s : State) (e : ErrKind) (addr : Offset) : State :=
  (s.raise e (offsetInfo addr)).respond none true

/-- `MemRead(addr, width)` (20_memory.md R62, R64 to R72), checked in the order of R73. While BUSY a data register or a
table reads a fresh free value (R72, U1). -/
def State.busRead (s : State) (addr : Offset) (width : Nat) : State :=
  if badAccess addr width then s.readFault addr
  else if targetOf addr = .reserved then s.readFault addr
  else if s.busy && (targetOf addr).isData then
    { s.respond (some (Config.freeWord s.draws)) false with draws := s.draws + 1 }
  else s.respond (some (s.regWord (targetOf addr))) false

/-- The effect of a CTRL write (20_memory.md R70): the enables, then the soft reset, which clears them again. -/
def State.writeCtrl (s : State) (v : Word) : State :=
  let s1 : State := { s with ctrl := { ieDone := v.getLsbD 1, ieErr := v.getLsbD 2 } }
  if v.getLsbD 0 then s1.softReset else s1

/-- The effect of a STATUS write: write 1 to clear DONE, ERR (with ERRCODE and ERRINFO) and EMULT (20_memory.md R70). -/
def State.writeStatus (s : State) (v : Word) : State :=
  let s1 : State := if v.getLsbD 2 then { s with status := { s.status with done := false } } else s
  let s2 : State := if v.getLsbD 3 then s1.clearErr else s1
  if v.getLsbD 5 then { s2 with status := { s2.status with emult := false } } else s2

/-- The range check of a data-register write (20_memory.md R65 to R67): 0..255 for S and CELL, 0..256 for LEN. -/
def fitsElement (v : Word) : Bool := v.extractLsb' 8 24 == 0

/-- The range check of a LEN write (20_memory.md R66). -/
def fitsLength (v : Word) : Bool := v.toNat ≤ 256

/-- LEN_i written; no cell changes (20_memory.md R66). -/
def State.setLen (s : State) (i : RegIdx) (n : BitVec 9) : State :=
  s.setPreg i { s.pregs[i] with len := n }

/-- CELL_p[j] written; LEN_p does not change (20_memory.md R67). -/
def State.setCell (s : State) (p : RegIdx) (j : Fin 256) (v : Byte) : State :=
  s.setPreg p { s.pregs[p] with cells := (s.pregs[p]).cells.set j v }

/-- A write to a CMD, S, LEN or CELL offset: EBUSY while BUSY (20_memory.md R72), then ERANGE for a value out of range
(R65 to R67), else the write is done. -/
def State.writeChecked (s : State) (addr : Offset) (inRange : Bool) (written : State) : State :=
  if s.busy then s.writeFault .ebusy addr
  else if !inRange then s.writeFault .erange addr
  else written.respond none false

/-- `MemWrite(addr, width, v)` (20_memory.md R62, R65 to R72), checked in the order of R73. -/
def State.busWrite (s : State) (addr : Offset) (width : Nat) (v : Word) : State :=
  if badAccess addr width then s.writeFault .eacc addr
  else match targetOf addr with
    | .ctrl => (s.writeCtrl v).respond none false
    | .status => (s.writeStatus v).respond none false
    | .cmd => s.writeChecked addr true (s.accept v)
    | .sreg i => s.writeChecked addr (fitsElement v) (s.setSreg i (v.setWidth 8))
    | .len i => s.writeChecked addr (fitsLength v) (s.setLen i (v.setWidth 9))
    | .cell p j => s.writeChecked addr (fitsElement v) (s.setCell p j (v.setWidth 8))
    | .id => s.writeFault .eacc addr
    | .errinfo => s.writeFault .eacc addr
    | .rootcnt => s.writeFault .eacc addr
    | .rootmap _ => s.writeFault .eacc addr
    | .log _ => s.writeFault .eacc addr
    | .alog _ => s.writeFault .eacc addr
    | .reserved => s.writeFault .eacc addr

/-- One host transaction. -/
def State.transact (s : State) : Txn → State
  | .read addr width => s.busRead addr width
  | .write addr width v => s.busWrite addr width v

/-- The window offset a host address reaches when the window sits at `base` (OPEN parameter `GFPE_BASE`, U4;
20_memory.md R60); an address outside the window reaches nothing of GFPE (log entry 9). -/
def windowOffset (base hostAddr : Nat) : Option Offset :=
  if base ≤ hostAddr ∧ hostAddr < base + Config.windowSize then some (BitVec.ofNat 15 (hostAddr - base)) else none

end Sys2Proof.Machine
end

