-- ==== Sys2Proof/Machine/FieldCmds.lean ====
section
/-! DEFINITION. The field-element commands (41_field.md R125 to R130). Each answers the state after completion
(30_encoding.md R106, R107). The info value of a command's error is written as the encoding of the decoded command,
which is the accepted word (DEDUCED, log entry 10). -/

namespace Sys2Proof.Machine

/-- NOP: nothing but the completion; ZERO unchanged (41_field.md R125). -/
def execNop (s : State) : Host.Outcome State Fault Refusal :=
  .next s.complete

/-- GADD (41_field.md R126). -/
def execGadd (d a b : RegIdx) (s : State) : Host.Outcome State Fault Refusal :=
  .next (s.finishScalar d (gadd (s.sreg a) (s.sreg b)))

/-- GMUL (41_field.md R127). -/
def execGmul (d a b : RegIdx) (s : State) : Host.Outcome State Fault Refusal :=
  .next (s.finishScalar d (gmul s.tables (s.sreg a) (s.sreg b)))

/-- GMULR: the reference multiply, reading no table (41_field.md R128). -/
def execGmulr (d a b : RegIdx) (s : State) : Host.Outcome State Fault Refusal :=
  .next (s.finishScalar d (slowmul (s.sreg a) (s.sreg b)))

/-- GDIV: EDIVZ when the divisor is 0, `0 / 0` included (41_field.md R129). -/
def execGdiv (d a b : RegIdx) (s : State) : Host.Outcome State Fault Refusal :=
  if s.sreg b = 0 then .next (s.failCommand .edivz (encode (.gdiv d a b)))
  else .next (s.finishScalar d (gdiv s.tables (s.sreg a) (s.sreg b)))

/-- GPOW (41_field.md R130). -/
def execGpow (d a : RegIdx) (n : BitVec 16) (s : State) : Host.Outcome State Fault Refusal :=
  .next (s.finishScalar d (gpow s.tables (s.sreg a) (immediate n)))

end Sys2Proof.Machine
end

