-- ==== Sys2Proof/Machine/PolyCmds.lean ====
section
/-! DEFINITION. The polynomial commands (42_polynomial.md R160 to R166). All operands are read before any destination is
written (30_encoding.md R106). -/

namespace Sys2Proof.Machine

/-- PTRIM (42_polynomial.md R160). -/
def execPtrim (d a : RegIdx) (s : State) : Host.Outcome State Fault Refusal :=
  .next (s.finishPoly d (s.poly a))

/-- PADD (42_polynomial.md R161). -/
def execPadd (d a b : RegIdx) (s : State) : Host.Outcome State Fault Refusal :=
  .next (s.finishPoly d (padd (s.poly a) (s.poly b)))

/-- The product of x and y would not fit a register: both nonzero and |x| + |y| - 1 > 256 (42_polynomial.md R156). -/
def productTooLong (x y : Poly) : Bool :=
  0 < x.length && 0 < y.length && Config.pcap < x.length + y.length - 1

/-- PMUL: ECAP when the product would have more than 256 coefficients (42_polynomial.md R162). -/
def execPmul (d a b : RegIdx) (s : State) : Host.Outcome State Fault Refusal :=
  if productTooLong (s.poly a) (s.poly b) then .next (s.failCommand .ecap (encode (.pmul d a b)))
  else .next (s.finishPoly d (pmul s.tables (s.poly a) (s.poly b)))

/-- PDIV: quotient to Pq and remainder to Pr together; ZERO is the remainder's; EPDIVZ when the divisor is []
(42_polynomial.md R163). -/
def execPdiv (q r a b : RegIdx) (s : State) : Host.Outcome State Fault Refusal :=
  if (s.poly b).length = 0 then .next (s.failCommand .epdivz (encode (.pdiv q r a b)))
  else
    let qr := pdivmod s.tables (s.poly a) (s.poly b)
    .next ((s.setPoly q qr.1).finishPoly r qr.2)

/-- PMOD: the remainder alone (42_polynomial.md R164). -/
def execPmod (d a b : RegIdx) (s : State) : Host.Outcome State Fault Refusal :=
  if (s.poly b).length = 0 then .next (s.failCommand .epdivz (encode (.pmod d a b)))
  else .next (s.finishPoly d (pdivmod s.tables (s.poly a) (s.poly b)).2)

/-- PEVAL: field A names a polynomial register, B and D scalar registers (42_polynomial.md R165). -/
def execPeval (d a b : RegIdx) (s : State) : Host.Outcome State Fault Refusal :=
  .next (s.finishScalar d (peval s.tables (s.poly a) (s.sreg b)))

/-- PDER (42_polynomial.md R166). -/
def execPder (d a : RegIdx) (s : State) : Host.Outcome State Fault Refusal :=
  .next (s.finishPoly d (pder (s.poly a)))

end Sys2Proof.Machine
end

