-- ==== Sys2Proof/Machine/RsCmds.lean ====
section
/-! DEFINITION. The Reed–Solomon derivation commands (43_rs_derivations.md R191, R193, R195). -/

namespace Sys2Proof.Machine

/-- RSGEN: ECAP when n + 1 > 256 (43_rs_derivations.md R191). A generator polynomial is never zero, so ZERO is 0. -/
def execRsgen (d : RegIdx) (n : BitVec 16) (s : State) : Host.Outcome State Fault Refusal :=
  if Config.pcap < immediate n + 1 then .next (s.failCommand .ecap (encode (.rsgen d n)))
  else .next (((s.setPoly d (generator s.tables (immediate n))).setZero false).complete)

/-- SYND: ECAP when t > 256 (43_rs_derivations.md R193). -/
def execSynd (d a : RegIdx) (t : BitVec 16) (s : State) : Host.Outcome State Fault Refusal :=
  if Config.pcap < immediate t then .next (s.failCommand .ecap (encode (.synd d a t)))
  else .next (s.finishPoly d (syndromes s.tables (s.poly a) (immediate t)))

/-- ROOTS: ROOTMAP, ROOTCNT and ZERO; no S or P register is written (43_rs_derivations.md R195). -/
def execRoots (a : RegIdx) (s : State) : Host.Outcome State Fault Refusal :=
  let r := roots s.tables (s.poly a)
  .next (((s.setRoots r).setZero (zeroOfCount r.length)).complete)

end Sys2Proof.Machine
end

