-- ==== Sys2Proof/Machine/Dispatch.lean ====
section
/-! DEFINITION. The meaning of each command: one arm per constructor of Instr. -/

namespace Sys2Proof.Machine

def exec (i : Instr) (s : State) : Host.Outcome State Fault Refusal :=
  match i with
  | .nop => Sys2Proof.Machine.execNop s
  | .gadd d a b => Sys2Proof.Machine.execGadd d a b s
  | .gmul d a b => Sys2Proof.Machine.execGmul d a b s
  | .gmulr d a b => Sys2Proof.Machine.execGmulr d a b s
  | .gdiv d a b => Sys2Proof.Machine.execGdiv d a b s
  | .gpow d a n => Sys2Proof.Machine.execGpow d a n s
  | .ptrim d a => Sys2Proof.Machine.execPtrim d a s
  | .padd d a b => Sys2Proof.Machine.execPadd d a b s
  | .pmul d a b => Sys2Proof.Machine.execPmul d a b s
  | .pdiv q r a b => Sys2Proof.Machine.execPdiv q r a b s
  | .pmod d a b => Sys2Proof.Machine.execPmod d a b s
  | .peval d a b => Sys2Proof.Machine.execPeval d a b s
  | .pder d a => Sys2Proof.Machine.execPder d a s
  | .rsgen d n => Sys2Proof.Machine.execRsgen d n s
  | .synd d a t => Sys2Proof.Machine.execSynd d a t s
  | .roots a => Sys2Proof.Machine.execRoots a s

end Sys2Proof.Machine
end

