-- ==== Sys2Proof/Machine/Engine.lean ====
section
/-! DEFINITION. One turn of the engine (10_state.md R20, R37). -/

namespace Sys2Proof.Machine

/-- Execution of an accepted word as one indivisible transition: decode, then the command's meaning; a word that names
no command raises EILL and completes (30_encoding.md R98, R106, R107). -/
def State.runCommand (s : State) (w : Word) : Host.Outcome State Fault Refusal :=
  match decodeWord w with
  | .ok i => exec i s
  | .error _ => .next (s.failCommand .eill w)

/-- The engine's turn: the bootstrap in BOOT (70_reset_and_hazards.md R261), the accepted command in EXEC
(30_encoding.md R106), nothing in IDLE (70_reset_and_hazards.md R263). -/
def State.engineTurn (s : State) : Host.Outcome State Fault Refusal :=
  match s.phase with
  | .boot => .next s.bootstrap
  | .idle => .next s
  | .exec w => s.runCommand w

end Sys2Proof.Machine
end

