-- ==== Sys2Proof/Machine/Step.lean ====
section
/-! DEFINITION. One step of the machine: the next turn of the schedule (20_memory.md R74), the engine's where the
schedule lists none (70_reset_and_hazards.md R270); and the host's way to place one command. -/

namespace Sys2Proof.Machine

/-- One step (log entry 2). -/
def step (s : State) : Host.Outcome State Fault Refusal :=
  match s.schedule with
  | [] => s.engineTurn
  | .engine :: _ => s.popTurn.engineTurn
  | .bus t :: _ => .next (s.popTurn.transact t)
  | .hardReset :: _ => .next s.popTurn.hardReset

/-- The state whose next step runs the command word w: GFPE fetches nothing (10_state.md R31), so this is the state an
accepted CMD write of w leaves (log entry 1). -/
def State.withFetchWord (s : State) (nbits w : Nat) : State := s.loadCommand (tableWord nbits w)

end Sys2Proof.Machine
end

