-- ==== Sys2Proof/Safety.lean ====
section
/-! DEFINITION. The terms the claims use: words by the places of their fields, the destinations and the error a command
has, the state after an error, and the invariant of the machine. -/

namespace Sys2Proof.Machine

/-! ## Words by the places of their fields (30_encoding.md R91, R92) -/

/-- The format R word: OPC at bit 24, D at 20, A at 16, B at 12, E at 8, Z = 0 (30_encoding.md R91). -/
def wordR (opc d a b e : Nat) : Word :=
  BitVec.ofNat 32 (opc * 2 ^ 24 + d * 2 ^ 20 + a * 2 ^ 16 + b * 2 ^ 12 + e * 2 ^ 8)

/-- The format I word: OPC at bit 24, D at 20, A at 16, IMM at 0 (30_encoding.md R92). -/
def wordI (opc d a imm : Nat) : Word :=
  BitVec.ofNat 32 (opc * 2 ^ 24 + d * 2 ^ 20 + a * 2 ^ 16 + imm)

/-- The match and mask of each row of the opcode map (30_encoding.md R97). -/
def opcodeRows : List (Word × Word) :=
  [ (0x00000000, 0xFFFFFFFF), (0x10000000, 0xFF888FFF), (0x11000000, 0xFF888FFF), (0x12000000, 0xFF888FFF) ] ++
  [ (0x13000000, 0xFF888FFF), (0x14000000, 0xFF880000), (0x20000000, 0xFF88FFFF), (0x21000000, 0xFF888FFF) ] ++
  [ (0x22000000, 0xFF888FFF), (0x23000000, 0xFF8888FF), (0x24000000, 0xFF888FFF), (0x25000000, 0xFF888FFF) ] ++
  [ (0x26000000, 0xFF88FFFF), (0x30000000, 0xFF8F0000), (0x31000000, 0xFF880000), (0x32000000, 0xFFF8FFFF) ]

/-- w is an illegal word (30_encoding.md R98): it matches no row of the map, or it is a PDIV word with D = E (R99). -/
def IllegalWord (w : Word) : Prop :=
  (∀ row ∈ opcodeRows, w &&& row.2 ≠ row.1) ∨
  (w &&& 0xFF8888FF = 0x23000000 ∧ w.extractLsb' 20 4 = w.extractLsb' 8 4)

/-! ## What a command names as destinations (30_encoding.md R97) -/

/-- The scalar register a command writes. -/
def scalarDests : Instr → List RegIdx
  | .gadd d _ _ => [d]
  | .gmul d _ _ => [d]
  | .gmulr d _ _ => [d]
  | .gdiv d _ _ => [d]
  | .gpow d _ _ => [d]
  | .peval d _ _ => [d]
  | .nop => []
  | .ptrim _ _ => []
  | .padd _ _ _ => []
  | .pmul _ _ _ => []
  | .pdiv _ _ _ _ => []
  | .pmod _ _ _ => []
  | .pder _ _ => []
  | .rsgen _ _ => []
  | .synd _ _ _ => []
  | .roots _ => []

/-- The polynomial registers a command writes. -/
def polyDests : Instr → List RegIdx
  | .ptrim d _ => [d]
  | .padd d _ _ => [d]
  | .pmul d _ _ => [d]
  | .pdiv q r _ _ => [q, r]
  | .pmod d _ _ => [d]
  | .pder d _ => [d]
  | .rsgen d _ => [d]
  | .synd d _ _ => [d]
  | .nop => []
  | .gadd _ _ _ => []
  | .gmul _ _ _ => []
  | .gmulr _ _ _ => []
  | .gdiv _ _ _ => []
  | .gpow _ _ _ => []
  | .peval _ _ _ => []
  | .roots _ => []

/-- The command is ROOTS, whose destinations are ROOTMAP and ROOTCNT (30_encoding.md R106). -/
def writesRoots : Instr → Bool
  | .roots _ => true
  | .nop => false
  | .gadd _ _ _ => false
  | .gmul _ _ _ => false
  | .gmulr _ _ _ => false
  | .gdiv _ _ _ => false
  | .gpow _ _ _ => false
  | .ptrim _ _ => false
  | .padd _ _ _ => false
  | .pmul _ _ _ => false
  | .pdiv _ _ _ _ => false
  | .pmod _ _ _ => false
  | .peval _ _ _ => false
  | .pder _ _ => false
  | .rsgen _ _ => false
  | .synd _ _ _ => false

/-! ## Errors -/

/-- The code of the error a decoded command raises on the operands of s, none where it raises none: the conditions of
60_exceptions.md R221 for codes 0x02 to 0x04, in the order of R225. -/
def commandError (s : State) : Instr → Option Byte
  | .gdiv _ _ b => if s.sregs[b] = 0 then some 0x02 else none
  | .pdiv _ _ _ b => if (s.pregs[b]).value = [] then some 0x03 else none
  | .pmod _ _ b => if (s.pregs[b]).value = [] then some 0x03 else none
  | .pmul _ a b =>
    if 0 < (s.pregs[a]).value.length ∧ 0 < (s.pregs[b]).value.length ∧
        256 < (s.pregs[a]).value.length + (s.pregs[b]).value.length - 1 then some 0x04 else none
  | .rsgen _ n => if 255 < n.toNat then some 0x04 else none
  | .synd _ _ t => if 256 < t.toNat then some 0x04 else none
  | .nop => none
  | .gadd _ _ _ => none
  | .gmul _ _ _ => none
  | .gmulr _ _ _ => none
  | .gpow _ _ _ => none
  | .ptrim _ _ => none
  | .padd _ _ _ => none
  | .peval _ _ _ => none
  | .pder _ _ => none
  | .roots _ => none

/-- The STATUS bits after an error of the given code (60_exceptions.md R222). -/
def statusAfterError (st : Status) (code : Byte) : Status :=
  if st.err then { st with emult := true } else { st with err := true, errcode := code }

/-- ERRINFO after an error with the given info value (60_exceptions.md R222). -/
def errinfoAfterError (s : State) (info : Word) : Word := if s.status.err then s.errinfo else info

/-- The state after a command that failed with the given code: the error record, DONE and the phase, nothing else
(60_exceptions.md R223). -/
def commandFailed (s : State) (code : Byte) (w : Word) : State :=
  { s with
    status := { statusAfterError s.status code with done := true }
    errinfo := errinfoAfterError s w
    phase := .idle }

/-- The state after a bus transaction that failed with the given code at an offset, with the data it answered: the
error record and the answer, nothing else (60_exceptions.md R224). -/
def busFailed (s : State) (code : Byte) (addr : Offset) (data : Option Word) : State :=
  { s with
    status := statusAfterError s.status code
    errinfo := errinfoAfterError s (addr.setWidth 32)
    resp := some { data := data, error := Config.busErrResp } }

/-- The state after a bus transaction that changed nothing and answered the given data. -/
def answered (s : State) (data : Option Word) : State := { s with resp := some { data := data, error := false } }

/-! ## Writes of the control registers (20_memory.md R70) -/

/-- The state after a write of STATUS: write 1 to clear DONE (bit 2), ERR with ERRCODE and ERRINFO (bit 3), EMULT
(bit 5). -/
def afterStatusWrite (s : State) (v : Word) : State :=
  { s with
    status := { s.status with
      done := s.status.done && !v.getLsbD 2
      err := s.status.err && !v.getLsbD 3
      errcode := if v.getLsbD 3 then 0 else s.status.errcode
      emult := s.status.emult && !v.getLsbD 5 }
    errinfo := if v.getLsbD 3 then 0 else s.errinfo }

/-- The state after a soft reset (70_reset_and_hazards.md R262): the reset values everywhere but in the tables, READY,
a bootstrap in progress and the model's own fields. -/
def afterSoftReset (s : State) : State :=
  { State.reset with
    tables := s.tables
    status := { State.reset.status with ready := s.status.ready }
    phase := if s.phase = .boot then .boot else .idle
    schedule := s.schedule
    resp := s.resp
    draws := s.draws }

/-- The state after a write of CTRL: the soft reset where bit 0 is 1, else the two enables. -/
def afterCtrlWrite (s : State) (v : Word) : State :=
  if v.getLsbD 0 then afterSoftReset s
  else { s with ctrl := { ieDone := v.getLsbD 1, ieErr := v.getLsbD 2 } }

/-! ## Turns -/

/-- The host's transaction t is the next turn of a machine otherwise in state s. -/
def withTurn (s : State) (t : Turn) : State := { s with schedule := t :: s.schedule }

/-- The engine moves next: its turn heads the schedule, or the schedule lists nothing. -/
def EngineMoves (s : State) : Prop := s.schedule = [] ∨ ∃ q, s.schedule = .engine :: q

/-- A byte offset of the window. -/
def offset (n : Nat) : Offset := BitVec.ofNat 15 n

/-- Two states that differ at most in the error record (60_exceptions.md R228). -/
def SameButErrors (s s' : State) : Prop :=
  s' = { s with
    status := { s.status with err := s'.status.err, errcode := s'.status.errcode, emult := s'.status.emult }
    errinfo := s'.errinfo }

/-! ## The bootstrap loop as the spec writes it (70_reset_and_hazards.md R261) -/

/-- The iterations still to run, the next one numbered i, on the element a and the tables t as they stand. -/
def bootstrapLoop : Nat → Nat → Byte → Tables → Byte × Tables
  | 0, _, a, t => (a, t)
  | n + 1, i, a, t =>
    bootstrapLoop n (i + 1) (slowmul a 2)
      { log := t.log.setIfInBounds a.toNat (BitVec.ofNat 8 i), alog := t.alog.setIfInBounds i a }

/-- The whole bootstrap run over tables of any content: the loop for i = 0..254, then `ALOG[255] <- a` and
`LOG[0] <- 0`. -/
def bootstrapTables (t : Tables) : Tables :=
  let r := bootstrapLoop 255 0 1 t
  { log := r.2.log.setIfInBounds 0 0, alog := r.2.alog.setIfInBounds 255 r.1 }

/-! ## The window by numbers (20_memory.md R61) -/

/-- A reserved word offset. -/
def ReservedOffset (n : Nat) : Prop :=
  (0x18 ≤ n ∧ n < 0x20) ∨ (0x80 ≤ n ∧ n < 0x1000) ∨ (0x3000 ≤ n ∧ n < 0x4000) ∨ (0x4800 ≤ n ∧ n < 0x8000)

/-- The offset of a read-only register: ID, ERRINFO, ROOTCNT, ROOTMAP_k, LOG, ALOG. -/
def ReadOnlyOffset (n : Nat) : Prop :=
  n = 0x00 ∨ n = 0x10 ∨ n = 0x14 ∨ (0x40 ≤ n ∧ n < 0x60) ∨ (0x4000 ≤ n ∧ n < 0x4800)

/-- The offset of a register whose write is refused while BUSY: CMD, S_i, LEN_i, CELL (20_memory.md R72). -/
def RefusedWhileBusy (n : Nat) : Prop :=
  n = 0x0C ∨ (0x20 ≤ n ∧ n < 0x40) ∨ (0x60 ≤ n ∧ n < 0x80) ∨ (0x1000 ≤ n ∧ n < 0x3000)

/-- The offset of a register whose read is unspecified while BUSY: S_i, LEN_i, CELL, ROOTCNT, ROOTMAP_k, LOG, ALOG
(20_memory.md R72). -/
def UnspecifiedWhileBusy (n : Nat) : Prop :=
  n = 0x14 ∨ (0x20 ≤ n ∧ n < 0x80) ∨ (0x1000 ≤ n ∧ n < 0x3000) ∨ (0x4000 ≤ n ∧ n < 0x4800)

/-! ## Sums over the field -/

/-- The field sum of a list. -/
def fieldSum (l : List Byte) : Byte := l.foldr gadd 0

/-! ## The invariant -/

/-- What holds of every state a run reaches from reset. -/
structure State.Inv (s : State) : Prop where
  /-- READY is 1 exactly outside BOOT (10_state.md R34, R37; 30_encoding.md R105). -/
  ready_iff : s.status.ready = true ↔ s.phase ≠ .boot
  /-- Once READY, the tables are those of the bootstrap (10_state.md R28). -/
  tables_built : s.status.ready = true → s.tables = builtTables
  /-- Every LEN is legal, 0..256 (10_state.md R22). -/
  len_legal : ∀ i : Fin 8, (s.pregs[i]).len.toNat ≤ 256
  /-- ROOTCNT is the number of 1 bits in ROOTMAP (10_state.md R30). -/
  rootcnt_counts : s.rootcnt.toNat = countBits s.rootmap
  /-- With ERR = 0, ERRCODE and ERRINFO read 0 (10_state.md R34, R35). -/
  no_error : s.status.err = false → s.status.errcode = 0 ∧ s.errinfo = 0
  /-- With ERR = 1, ERRCODE is one of 0x01..0x07 (60_exceptions.md R221). -/
  error_code : s.status.err = true → 1 ≤ s.status.errcode.toNat ∧ s.status.errcode.toNat ≤ 7
  /-- The running word is LASTCMD (30_encoding.md R105). -/
  running_is_last : ∀ w, s.phase = .exec w → s.lastcmd = w
  /-- While BUSY, DONE is 0 (30_encoding.md R105, R107). -/
  busy_not_done : s.phase ≠ .idle → s.status.done = false

end Sys2Proof.Machine
end

