-- ==== Sys2Proof/Certificates/Slice0/Obligations.lean ====
section
/-! DEFINITION. The statements for the provers: what the spec's rules say a command, the bus, the engine and a reset do. -/

open Sys2Proof Sys2Proof.Machine

/-! ## Encoding and decoding -/

/-- 95_test_vectors.md §4.4: words written out from the formats, and what they decode to. -/
def Obligations.DecodesWordsOfTheSpec : Prop :=
  decodeWord 0x00000000 = .ok .nop ∧
  decodeWord 0x10123000 = .ok (.gadd 1 2 3) ∧
  decodeWord 0x141200FE = .ok (.gpow 1 2 254) ∧
  decodeWord 0x20210000 = .ok (.ptrim 2 1) ∧
  decodeWord 0x23123400 = .ok (.pdiv 1 4 2 3) ∧
  decodeWord 0x25011000 = .ok (.peval 0 1 1) ∧
  decodeWord 0x30200005 = .ok (.rsgen 2 5) ∧
  decodeWord 0x31310005 = .ok (.synd 3 1 5) ∧
  decodeWord 0x32010000 = .ok (.roots 1) ∧
  decodeWord 0x10812000 = .error .registerOutOfRange ∧
  decodeWord 0x20213000 = .error .nonzeroUnusedField ∧
  decodeWord 0x23112100 = .error .sameDestinations ∧
  decodeWord 0xFF000000 = .error .unknownOpcode

/-- Decoding gives back every well-formed command from its word, with every operand at every value (30_encoding.md
§1 to §3). -/
def Obligations.DecodeOfEncodeIsIdentity : Prop :=
  ∀ i : Instr, WellFormed i → decodeWord (encode i) = .ok i

/-- A word that decodes is the word of the well-formed command it decodes to: no bit of it is ignored (30_encoding.md
R95: "There are no 'ignored' bits"). -/
def Obligations.EncodeOfDecodeIsIdentity : Prop :=
  ∀ (w : Word) (i : Instr), decodeWord w = .ok i → WellFormed i ∧ encode i = w

/-- 30_encoding.md R98. An accepted illegal word raises EILL with the word as info; every other word names a command;
the only word that names NOP is 0. -/
def Obligations.IllegalWordsRaiseEill : Prop :=
  ∀ w : Word,
    (IllegalWord w → ∀ s : State, s.phase = .exec w →
      step (withTurn s .engine) = .next (commandFailed s 0x01 w)) ∧
    (¬ IllegalWord w → ∃ i, decodeWord w = .ok i) ∧
    (decodeWord w = .ok .nop → w = 0)

/-! ## The engine and the tables -/

/-- When the engine moves and the accepted word decodes to a command, the step is that command's meaning, on the state
with the turn taken off the schedule (30_encoding.md R106; the schedule is the model's own, log entry 2). -/
def Obligations.StepRunsDecodedCommand : Prop :=
  ∀ (s : State) (w : Word) (i : Instr), EngineMoves s → s.phase = .exec w → decodeWord w = .ok i →
    step s = exec i { s with schedule := s.schedule.tail }

/-- In BOOT the engine's step leaves what the spec's own loop makes of the tables, whatever they held, READY set and
the phase IDLE, and nothing else (70_reset_and_hazards.md R261). That the whole bootstrap is one step is the model's
choice, which R270 allows (log entry 7). -/
def Obligations.BootstrapRunsTheLoop : Prop :=
  ∀ s : State, s.phase = .boot →
    step (withTurn s .engine) = .next { s with
      tables := bootstrapTables s.tables
      status := { s.status with ready := true }
      phase := .idle }

/-- 10_state.md R28. The table invariants after the bootstrap; and no step but the bootstrap and a hardware reset
changes a table. -/
def Obligations.TableInvariantsHold : Prop :=
  (∀ s : State, s.phase = .boot → ∃ t, step (withTurn s .engine) = .next t ∧
    (∀ v : Byte, v ≠ 0 → t.tables.alogAt (t.tables.logAt v) = v) ∧
    (∀ i : Nat, i ≤ 254 → t.tables.logAt (t.tables.alogAt i) = i) ∧
    (∀ v : Byte, v ≠ 0 ↔ ∃ i : Nat, i ≤ 254 ∧ t.tables.alogAt i = v)) ∧
  (∀ (s t : State) (turn : Turn), step (withTurn s turn) = .next t → turn ≠ .hardReset →
    (turn = .engine → s.phase ≠ .boot) → t.tables = s.tables)

/-- 41_field.md R122. Table multiplication is what the rule says and equals the reference multiply on all pairs. -/
def Obligations.TableMultiplyIsReferenceMultiply : Prop :=
  ∀ a b : Byte,
    (a = 0 ∨ b = 0 → gmul builtTables a b = 0) ∧
    (a ≠ 0 → b ≠ 0 → gmul builtTables a b =
      builtTables.alogAt ((builtTables.logAt a + builtTables.logAt b) % 255)) ∧
    gmul builtTables a b = slowmul a b

/-- 41_field.md R131. -/
def Obligations.FieldLawsHold : Prop :=
  ∀ a b c : Byte,
    gadd a a = 0 ∧
    gmul builtTables a (gadd b c) = gadd (gmul builtTables a b) (gmul builtTables a c) ∧
    gmul builtTables a b = slowmul a b ∧
    (b ≠ 0 → gdiv builtTables (gmul builtTables a b) b = a) ∧
    gpow builtTables a 3 = gmul builtTables (gmul builtTables a a) a ∧
    (gmul builtTables a b = gmul builtTables b a ∧ gadd a b = gadd b a ∧
      gmul builtTables (gmul builtTables a b) c = gmul builtTables a (gmul builtTables b c) ∧
      gadd (gadd a b) c = gadd a (gadd b c) ∧
      gmul builtTables 1 a = a ∧
      (a ≠ 0 → gmul builtTables a (gpow builtTables a 254) = 1))

/-! ## The commands: encoding, result, flags, errors and frame

Each says what the whole next state is: the fields named in the record update, every other field as it was. -/

/-- 41_field.md R125. -/
def Obligations.NopOnlyCompletes : Prop :=
  decodeWord 0x00000000 = .ok .nop ∧
  ∀ s : State, exec .nop s = .next { s with status := { s.status with done := true }, phase := .idle }

/-- 41_field.md R126. -/
def Obligations.GaddWritesTheSum : Prop :=
  ∀ (d a b : RegIdx) (s : State),
    decodeWord (wordR 0x10 d a b 0) = .ok (.gadd d a b) ∧
    exec (.gadd d a b) s = .next { s with
      sregs := s.sregs.set d (s.sregs[a] ^^^ s.sregs[b])
      status := { s.status with zero := s.sregs[a] ^^^ s.sregs[b] == 0, done := true }
      phase := .idle } ∧
    (a = b → s.sregs[a] ^^^ s.sregs[b] = 0)

/-- 41_field.md R127. -/
def Obligations.GmulWritesTheProduct : Prop :=
  ∀ (d a b : RegIdx) (s : State),
    decodeWord (wordR 0x11 d a b 0) = .ok (.gmul d a b) ∧
    exec (.gmul d a b) s = .next { s with
      sregs := s.sregs.set d (gmul s.tables s.sregs[a] s.sregs[b])
      status := { s.status with zero := gmul s.tables s.sregs[a] s.sregs[b] == 0, done := true }
      phase := .idle } ∧
    (s.tables = builtTables →
      (gmul s.tables s.sregs[a] s.sregs[b] = 0 ↔ s.sregs[a] = 0 ∨ s.sregs[b] = 0) ∧
      (s.sregs[a] = 1 → gmul s.tables s.sregs[a] s.sregs[b] = s.sregs[b]) ∧
      (s.sregs[b] = 1 → gmul s.tables s.sregs[a] s.sregs[b] = s.sregs[a]))

/-- 41_field.md R128: the result reads no table, and equals GMUL's on the built tables. -/
def Obligations.GmulrWritesTheReferenceProduct : Prop :=
  ∀ (d a b : RegIdx) (s : State),
    decodeWord (wordR 0x12 d a b 0) = .ok (.gmulr d a b) ∧
    exec (.gmulr d a b) s = .next { s with
      sregs := s.sregs.set d (slowmul s.sregs[a] s.sregs[b])
      status := { s.status with zero := slowmul s.sregs[a] s.sregs[b] == 0, done := true }
      phase := .idle } ∧
    (s.tables = builtTables → slowmul s.sregs[a] s.sregs[b] = gmul s.tables s.sregs[a] s.sregs[b])

/-- 41_field.md R129. -/
def Obligations.GdivWritesTheQuotientOrRaisesEdivz : Prop :=
  ∀ (d a b : RegIdx) (s : State),
    decodeWord (wordR 0x13 d a b 0) = .ok (.gdiv d a b) ∧
    (s.sregs[b] = 0 → exec (.gdiv d a b) s = .next (commandFailed s 0x02 (wordR 0x13 d a b 0))) ∧
    (s.sregs[b] ≠ 0 → exec (.gdiv d a b) s = .next { s with
      sregs := s.sregs.set d (gdiv s.tables s.sregs[a] s.sregs[b])
      status := { s.status with zero := gdiv s.tables s.sregs[a] s.sregs[b] == 0, done := true }
      phase := .idle }) ∧
    (s.tables = builtTables → s.sregs[b] ≠ 0 →
      (s.sregs[a] = 0 → gdiv s.tables s.sregs[a] s.sregs[b] = 0) ∧
      (s.sregs[a] = s.sregs[b] → gdiv s.tables s.sregs[a] s.sregs[b] = 1) ∧
      gdiv s.tables (gmul s.tables s.sregs[a] s.sregs[b]) s.sregs[b] = s.sregs[a])

/-- 41_field.md R130. -/
def Obligations.GpowWritesThePower : Prop :=
  ∀ (d a : RegIdx) (n : BitVec 16) (s : State),
    decodeWord (wordI 0x14 d a n.toNat) = .ok (.gpow d a n) ∧
    exec (.gpow d a n) s = .next { s with
      sregs := s.sregs.set d (gpow s.tables s.sregs[a] n.toNat)
      status := { s.status with zero := gpow s.tables s.sregs[a] n.toNat == 0, done := true }
      phase := .idle } ∧
    (s.sregs[a] = 0 → gpow s.tables s.sregs[a] n.toNat = 0) ∧
    (s.tables = builtTables → s.sregs[a] ≠ 0 →
      gpow s.tables s.sregs[a] n.toNat ≠ 0 ∧
      gpow s.tables s.sregs[a] 0 = 1 ∧
      gpow s.tables s.sregs[a] 1 = s.sregs[a] ∧
      gpow s.tables s.sregs[a] 255 = 1 ∧
      gpow s.tables s.sregs[a] (n.toNat + 255) = gpow s.tables s.sregs[a] n.toNat ∧
      gpow s.tables s.sregs[a] 254 = gdiv s.tables 1 s.sregs[a])

/-- 42_polynomial.md R160. -/
def Obligations.PtrimWritesTheTrimmedCopy : Prop :=
  ∀ (d a : RegIdx) (s : State),
    decodeWord (wordR 0x20 d a 0 0) = .ok (.ptrim d a) ∧
    exec (.ptrim d a) s = .next { s with
      pregs := s.pregs.set d (PolyReg.ofPoly (s.pregs[a]).value)
      status := { s.status with zero := (s.pregs[a]).value.length == 0, done := true }
      phase := .idle } ∧
    ((s.pregs[a]).len = 1 → (s.pregs[a]).cells[0] = 0 → (s.pregs[a]).value = [])

/-- 42_polynomial.md R161. -/
def Obligations.PaddWritesTheSum : Prop :=
  ∀ (d a b : RegIdx) (s : State),
    decodeWord (wordR 0x21 d a b 0) = .ok (.padd d a b) ∧
    exec (.padd d a b) s = .next { s with
      pregs := s.pregs.set d (PolyReg.ofPoly (padd (s.pregs[a]).value (s.pregs[b]).value))
      status := { s.status with
        zero := (padd (s.pregs[a]).value (s.pregs[b]).value).length == 0, done := true }
      phase := .idle } ∧
    ((padd (s.pregs[a]).value (s.pregs[b]).value).length = 0 ↔ (s.pregs[a]).value = (s.pregs[b]).value) ∧
    ((s.pregs[b]).value = [] → padd (s.pregs[a]).value (s.pregs[b]).value = (s.pregs[a]).value)

/-- 42_polynomial.md R162. -/
def Obligations.PmulWritesTheProductOrRaisesEcap : Prop :=
  ∀ (d a b : RegIdx) (s : State) (x y : Poly), x = (s.pregs[a]).value → y = (s.pregs[b]).value →
    decodeWord (wordR 0x22 d a b 0) = .ok (.pmul d a b) ∧
    (0 < x.length ∧ 0 < y.length ∧ 256 < x.length + y.length - 1 →
      exec (.pmul d a b) s = .next (commandFailed s 0x04 (wordR 0x22 d a b 0))) ∧
    (¬ (0 < x.length ∧ 0 < y.length ∧ 256 < x.length + y.length - 1) →
      exec (.pmul d a b) s = .next { s with
        pregs := s.pregs.set d (PolyReg.ofPoly (pmul s.tables x y))
        status := { s.status with zero := (pmul s.tables x y).length == 0, done := true }
        phase := .idle }) ∧
    (s.tables = builtTables → ((pmul s.tables x y).length = 0 ↔ x = [] ∨ y = []))

/-- 42_polynomial.md R163. -/
def Obligations.PdivWritesQuotientAndRemainderOrRaisesEpdivz : Prop :=
  ∀ (q r a b : RegIdx) (s : State) (x y : Poly), q ≠ r → x = (s.pregs[a]).value → y = (s.pregs[b]).value →
    decodeWord (wordR 0x23 q a b r) = .ok (.pdiv q r a b) ∧
    (y = [] → exec (.pdiv q r a b) s = .next (commandFailed s 0x03 (wordR 0x23 q a b r))) ∧
    (y ≠ [] → exec (.pdiv q r a b) s = .next { s with
      pregs := (s.pregs.set q (PolyReg.ofPoly (pdivmod s.tables x y).1)).set r (PolyReg.ofPoly (pdivmod s.tables x y).2)
      status := { s.status with zero := (pdivmod s.tables x y).2.length == 0, done := true }
      phase := .idle }) ∧
    (y ≠ [] → x.length < y.length → pdivmod s.tables x y = ([], x)) ∧
    (s.tables = builtTables → y.length = 1 → (pdivmod s.tables x y).2 = [])

/-- 42_polynomial.md R164. -/
def Obligations.PmodWritesTheRemainderOrRaisesEpdivz : Prop :=
  ∀ (d a b : RegIdx) (s : State) (x y : Poly), x = (s.pregs[a]).value → y = (s.pregs[b]).value →
    decodeWord (wordR 0x24 d a b 0) = .ok (.pmod d a b) ∧
    (y = [] → exec (.pmod d a b) s = .next (commandFailed s 0x03 (wordR 0x24 d a b 0))) ∧
    (y ≠ [] → exec (.pmod d a b) s = .next { s with
      pregs := s.pregs.set d (PolyReg.ofPoly (pdivmod s.tables x y).2)
      status := { s.status with zero := (pdivmod s.tables x y).2.length == 0, done := true }
      phase := .idle })

/-- 42_polynomial.md R165. -/
def Obligations.PevalWritesTheValue : Prop :=
  ∀ (d a b : RegIdx) (s : State) (p : Poly), p = (s.pregs[a]).value →
    decodeWord (wordR 0x25 d a b 0) = .ok (.peval d a b) ∧
    exec (.peval d a b) s = .next { s with
      sregs := s.sregs.set d (peval s.tables p s.sregs[b])
      status := { s.status with zero := peval s.tables p s.sregs[b] == 0, done := true }
      phase := .idle } ∧
    (p = [] → peval s.tables p s.sregs[b] = 0) ∧
    (s.tables = builtTables → s.sregs[b] = 0 → peval s.tables p s.sregs[b] = coeff p 0)

/-- 42_polynomial.md R166. -/
def Obligations.PderWritesTheDerivative : Prop :=
  ∀ (d a : RegIdx) (s : State) (p : Poly), p = (s.pregs[a]).value →
    decodeWord (wordR 0x26 d a 0 0) = .ok (.pder d a) ∧
    exec (.pder d a) s = .next { s with
      pregs := s.pregs.set d (PolyReg.ofPoly (pder p))
      status := { s.status with zero := (pder p).length == 0, done := true }
      phase := .idle } ∧
    (p.length ≤ 1 → pder p = []) ∧
    ((∀ j, j % 2 = 1 → coeff p j = 0) → pder p = [])

/-- 43_rs_derivations.md R191. -/
def Obligations.RsgenWritesTheGeneratorOrRaisesEcap : Prop :=
  ∀ (d : RegIdx) (n : BitVec 16) (s : State),
    decodeWord (wordI 0x30 d 0 n.toNat) = .ok (.rsgen d n) ∧
    (256 < n.toNat + 1 → exec (.rsgen d n) s = .next (commandFailed s 0x04 (wordI 0x30 d 0 n.toNat))) ∧
    (n.toNat + 1 ≤ 256 → exec (.rsgen d n) s = .next { s with
      pregs := s.pregs.set d (PolyReg.ofPoly (generator s.tables n.toNat))
      status := { s.status with zero := false, done := true }
      phase := .idle }) ∧
    (n = 0 → generator s.tables n.toNat = [1]) ∧
    (s.tables = builtTables → n = 255 → generator s.tables n.toNat = 1 :: List.replicate 254 0 ++ [1])

/-- 43_rs_derivations.md R193. -/
def Obligations.SyndWritesTheSyndromesOrRaisesEcap : Prop :=
  ∀ (d a : RegIdx) (n : BitVec 16) (s : State) (p : Poly), p = (s.pregs[a]).value →
    decodeWord (wordI 0x31 d a n.toNat) = .ok (.synd d a n) ∧
    (256 < n.toNat → exec (.synd d a n) s = .next (commandFailed s 0x04 (wordI 0x31 d a n.toNat))) ∧
    (n.toNat ≤ 256 → ∃ t, exec (.synd d a n) s = .next t ∧
      t = { s with
        pregs := s.pregs.set d (PolyReg.ofPoly (syndromes s.tables p n.toNat))
        status := { s.status with zero := (syndromes s.tables p n.toNat).length == 0, done := true }
        phase := .idle } ∧
      (∀ k : Fin 256, k.val < n.toNat →
        ((t.pregs[d]).cells[k]) = peval s.tables p (gpow s.tables 2 (k.val + 1))) ∧
      (t.status.zero = true ↔
        ∀ i : Nat, 1 ≤ i → i ≤ n.toNat → peval s.tables p (gpow s.tables 2 i) = 0)) ∧
    (s.tables = builtTables → ∀ i : Nat, peval s.tables p (gpow s.tables 2 (i + 255)) = peval s.tables p (gpow s.tables 2 i))

/-- 43_rs_derivations.md R195. -/
def Obligations.RootsWritesTheRootMap : Prop :=
  ∀ (a : RegIdx) (s : State) (p : Poly), p = (s.pregs[a]).value →
    decodeWord (wordR 0x32 0 a 0 0) = .ok (.roots a) ∧
    (∃ t, exec (.roots a) s = .next t ∧
      (∀ v : Byte, t.rootmap.getLsbD v.toNat = (peval s.tables p v == 0)) ∧
      t.rootcnt.toNat = countBits t.rootmap ∧
      t.status.zero = (t.rootcnt == 0) ∧
      t = { s with
        rootmap := t.rootmap
        rootcnt := t.rootcnt
        status := { s.status with zero := t.status.zero, done := true }
        phase := .idle } ∧
      (p = [] → t.rootcnt = 256) ∧
      (s.tables = builtTables → p.length = 1 → coeff p 0 ≠ 0 → t.rootcnt = 0) ∧
      (s.tables = builtTables → (t.rootmap.getLsbD 0 = true ↔ coeff p 0 = 0)))

/-! ## Errors -/

/-- 60_exceptions.md R223. A command that raises EILL, EDIVZ, EPDIVZ or ECAP records the error with the command word,
sets DONE, returns to IDLE and changes nothing else. -/
def Obligations.CommandErrorsArePrecise : Prop :=
  ∀ (s : State) (w : Word), s.phase = .exec w →
    (∀ e, decodeWord w = .error e → step (withTurn s .engine) = .next (commandFailed s 0x01 w)) ∧
    (∀ i code, decodeWord w = .ok i → commandError s i = some code →
      step (withTurn s .engine) = .next (commandFailed s code w))

/-- 60_exceptions.md R222. -/
def Obligations.FirstErrorIsKept : Prop :=
  ∀ (s : State) (e : ErrKind) (info : Word),
    (s.status.err = false → s.raise e info = { s with
      status := { s.status with err := true, errcode := e.code }, errinfo := info }) ∧
    (s.status.err = true → s.raise e info = { s with status := { s.status with emult := true } })

/-- 60_exceptions.md R228. On two states that differ at most in the error record, the bus accepts the same commands and
every command leaves states that differ at most there. -/
def Obligations.ErrorsDoNotStopTheEngine : Prop :=
  ∀ s s' : State, SameButErrors s s' →
    (∀ i : Instr, ∃ t t', exec i s = .next t ∧ exec i s' = .next t' ∧ SameButErrors t t') ∧
    (∀ w : Word, ∃ t t',
      step (withTurn s (.bus (.write (offset 0x0C) 4 w))) = .next t ∧
      step (withTurn s' (.bus (.write (offset 0x0C) 4 w))) = .next t' ∧ SameButErrors t t')

/-! ## Frames and whole-machine rules -/

/-- No command changes a register it does not name as a destination, ROOTMAP and ROOTCNT but for ROOTS, the tables,
LASTCMD, CTRL or READY (30_encoding.md R106); nor the model's own fields. -/
def Obligations.CommandsWriteOnlyTheirDestinations : Prop :=
  ∀ (i : Instr) (s t : State), exec i s = .next t →
    (∀ r : Fin 8, r ∉ scalarDests i → t.sregs[r] = s.sregs[r]) ∧
    (∀ r : Fin 8, r ∉ polyDests i → t.pregs[r] = s.pregs[r]) ∧
    (writesRoots i = false → t.rootmap = s.rootmap ∧ t.rootcnt = s.rootcnt) ∧
    t.tables = s.tables ∧ t.lastcmd = s.lastcmd ∧ t.ctrl = s.ctrl ∧ t.status.ready = s.status.ready ∧
    t.schedule = s.schedule ∧ t.resp = s.resp ∧ t.draws = s.draws

/-- 10_state.md R24. An engine write of a canonical polynomial, and that every polynomial a command writes is one. -/
def Obligations.EngineWritesAreCanonical : Prop :=
  (∀ (s : State) (d : RegIdx) (p : Poly), canon p = p → p.length ≤ 256 →
    (((s.setPoly d p).pregs[d]).len.toNat = p.length) ∧
    (∀ j : Fin 256, ((s.setPoly d p).pregs[d]).cells[j] = if h : j.val < p.length then p[j.val] else 0) ∧
    (∀ r : Fin 8, r ≠ d → (s.setPoly d p).pregs[r] = s.pregs[r])) ∧
  (∀ (i : Instr) (s t : State) (d : RegIdx), commandError s i = none → exec i s = .next t → d ∈ polyDests i →
    ∃ p : Poly, canon p = p ∧ p.length ≤ 256 ∧ t.pregs[d] = PolyReg.ofPoly p)

/-- 10_state.md R23. canon drops exactly the trailing zeros, and the value of a register is canon of its first LEN
cells: cells from LEN up are never part of it. -/
def Obligations.PolynomialValueIsTrimmed : Prop :=
  (∀ l : Poly, ∃ k : Nat, l = canon l ++ List.replicate k 0 ∧ (∀ x ∈ (canon l).getLast?, x ≠ 0)) ∧
  (∀ r : PolyReg, r.value = canon (r.cells.toList.take r.len.toNat)) ∧
  (∀ r r' : PolyReg, r.len = r'.len → (∀ j : Fin 256, j.val < r.len.toNat → r.cells[j] = r'.cells[j]) →
    r.value = r'.value)

/-- The ZERO flag (10_state.md R38): what each kind of command without error writes, and that a failing command, NOP
and a bus transaction that is no soft reset do not write it. -/
def Obligations.ZeroFlagIsWrittenAsRuled : Prop :=
  (∀ (i : Instr) (s t : State), commandError s i = none → exec i s = .next t →
    (∀ d, scalarDests i = [d] → t.status.zero = (t.sregs[d] == 0)) ∧
    (∀ d, (polyDests i).getLast? = some d → t.status.zero = ((t.pregs[d]).len == 0) ∨ ∃ n, i = .rsgen d n) ∧
    (∀ d n, i = .rsgen d n → t.status.zero = false) ∧
    (writesRoots i = true → t.status.zero = (t.rootcnt == 0)) ∧
    (i = .nop → t.status.zero = s.status.zero)) ∧
  (∀ (i : Instr) (s t : State), commandError s i ≠ none → exec i s = .next t → t.status.zero = s.status.zero) ∧
  (∀ (s t : State) (x : Txn), step (withTurn s (.bus x)) = .next t →
    (∀ v, x = .write (offset 0x04) 4 v → v.getLsbD 0 = false) → t.status.zero = s.status.zero)

/-- 10_state.md R37. -/
def Obligations.PhaseMovesAsRuled : Prop :=
  ∀ (s t : State) (turn : Turn), step (withTurn s turn) = .next t →
    (t.statusWord.getLsbD 0 = true ↔ t.phase ≠ .idle) ∧
    (turn = .hardReset → t.phase = .boot) ∧
    (turn = .engine → t.phase = .idle) ∧
    (∀ w, turn = .bus (.write (offset 0x0C) 4 w) → s.phase = .idle → t.phase = .exec w) ∧
    (∀ v w, turn = .bus (.write (offset 0x04) 4 v) → v.getLsbD 0 = true → s.phase = .exec w → t.phase = .idle) ∧
    (∀ x, turn = .bus x →
      ¬ (s.phase = .idle ∧ ∃ w, x = .write (offset 0x0C) 4 w) →
      ¬ ((∃ w, s.phase = .exec w) ∧ ∃ v : Word, v.getLsbD 0 = true ∧ x = .write (offset 0x04) 4 v) →
      t.phase = s.phase)

/-- Every step answers a next state; and where the engine moves, that state is IDLE: the bootstrap and every command end
(70_reset_and_hazards.md R270; 60_exceptions.md R228). -/
def Obligations.EngineAlwaysReturnsToIdle : Prop :=
  ∀ s : State, ∃ t, step s = .next t ∧ (EngineMoves s → t.phase = .idle)

/-- The invariant of Safety.lean holds at reset. -/
def Obligations.InvariantAtReset : Prop := State.reset.Inv

/-- Every step keeps the invariant, from any state that meets it. -/
def Obligations.StepKeepsInvariant : Prop :=
  ∀ s t : State, s.Inv → step s = .next t → t.Inv

/-! ## Resets -/

/-- 10_state.md R39. The tables are unspecified at reset: nothing is said of them until the bootstrap has run. -/
def Obligations.ResetValues : Prop :=
  (∀ i : Fin 8, State.reset.sregs[i] = 0) ∧
  (∀ i : Fin 8, (State.reset.pregs[i]).len = 0) ∧
  (∀ (i : Fin 8) (j : Fin 256), (State.reset.pregs[i]).cells[j] = 0) ∧
  State.reset.rootmap = 0 ∧ State.reset.rootcnt = 0 ∧ State.reset.lastcmd = 0 ∧
  State.reset.ctrlWord = 0 ∧ State.reset.statusWord = 0x00000001 ∧ State.reset.errinfo = 0 ∧
  State.reset.regWord .id = 0x47465045 ∧ State.reset.phase = .boot ∧ State.reset.irq = false ∧
  ∃ t, step (withTurn State.reset .engine) = .next t ∧ t.tables = bootstrapTables State.reset.tables

/-- 70_reset_and_hazards.md R260. From any state, in any phase, every piece of state but the tables, of which nothing is
said, takes its reset value; and the engine then runs the bootstrap from its beginning. -/
def Obligations.HardwareResetRestoresResetValues : Prop :=
  ∀ s : State, ∃ t, step (withTurn s .hardReset) = .next t ∧
    t = { State.reset with tables := t.tables, schedule := s.schedule, resp := s.resp, draws := t.draws } ∧
    ∃ u, step (withTurn t .engine) = .next u ∧ u.phase = .idle ∧ u.status.ready = true ∧
      u.tables = bootstrapTables t.tables

/-- 70_reset_and_hazards.md R262. -/
def Obligations.SoftResetKeepsTablesAndReady : Prop :=
  ∀ (s : State) (v : Word), v.getLsbD 0 = true →
    ∃ t, step (withTurn s (.bus (.write (offset 0x04) 4 v))) = .next t ∧
      (∀ i : Fin 8, t.sregs[i] = 0) ∧
      (∀ i : Fin 8, (t.pregs[i]).len = 0) ∧
      (∀ (i : Fin 8) (j : Fin 256), (t.pregs[i]).cells[j] = 0) ∧
      t.rootmap = 0 ∧ t.rootcnt = 0 ∧ t.lastcmd = 0 ∧ t.errinfo = 0 ∧
      t.ctrl.ieDone = false ∧ t.ctrl.ieErr = false ∧
      t.status.done = false ∧ t.status.err = false ∧ t.status.zero = false ∧ t.status.emult = false ∧
      t.status.errcode = 0 ∧
      t.status.ready = s.status.ready ∧ t.tables = s.tables ∧
      (s.phase = .boot → t.phase = .boot) ∧ (s.phase ≠ .boot → t.phase = .idle) ∧
      (s.phase ≠ .boot → s.status.ready = true → t.statusWord = 0x00000002) ∧
      t = answered (afterSoftReset s) none

/-! ## The bus -/

/-- 30_encoding.md R105. READY is 1 in IDLE in every state of the invariant; an illegal word is accepted like any other
and raises EILL when the engine executes it. -/
def Obligations.CommandWriteIsAcceptedOnlyWhenIdle : Prop :=
  ∀ (s : State) (w : Word),
    (s.phase = .idle → ∃ t, step (withTurn s (.bus (.write (offset 0x0C) 4 w))) = .next t ∧
      t = answered { s with
        lastcmd := w, status := { s.status with done := false }, phase := .exec w } none ∧
      t.statusWord.getLsbD 0 = true ∧
      (IllegalWord w → step (withTurn t .engine) = .next (commandFailed t 0x01 w))) ∧
    (s.phase = .idle → s.Inv → s.status.ready = true) ∧
    (s.phase ≠ .idle → step (withTurn s (.bus (.write (offset 0x0C) 4 w))) =
      .next (busFailed s 0x06 (offset 0x0C) none))

/-- 20_memory.md R62: checked first, in every phase and whatever the offset names. -/
def Obligations.UnalignedOrNarrowAccessFaults : Prop :=
  ∀ (s : State) (a : Offset) (width : Nat) (v : Word), width ≠ 4 ∨ a.toNat % 4 ≠ 0 →
    step (withTurn s (.bus (.read a width))) = .next (busFailed s 0x07 a (some 0)) ∧
    step (withTurn s (.bus (.write a width v))) = .next (busFailed s 0x07 a none)

/-- 20_memory.md R71: in every phase. -/
def Obligations.ReservedAndReadOnlyOffsetsFault : Prop :=
  ∀ (s : State) (n : Nat) (v : Word), n % 4 = 0 → n < 0x8000 →
    (ReservedOffset n →
      step (withTurn s (.bus (.read (offset n) 4))) = .next (busFailed s 0x07 (offset n) (some 0))) ∧
    (ReservedOffset n ∨ ReadOnlyOffset n →
      step (withTurn s (.bus (.write (offset n) 4 v))) = .next (busFailed s 0x07 (offset n) none))

/-- 20_memory.md R72. What a data register or a table reads while BUSY is left open: the statement says only that some
32-bit value is answered and that nothing but the answer and the draw counter changes. -/
def Obligations.BusyAccess : Prop :=
  ∀ s : State, s.phase ≠ .idle →
    (step (withTurn s (.bus (.read (offset 0x00) 4))) = .next (answered s (some 0x47465045)) ∧
      step (withTurn s (.bus (.read (offset 0x04) 4))) = .next (answered s (some s.ctrlWord)) ∧
      step (withTurn s (.bus (.read (offset 0x08) 4))) = .next (answered s (some s.statusWord)) ∧
      step (withTurn s (.bus (.read (offset 0x0C) 4))) = .next (answered s (some s.lastcmd)) ∧
      step (withTurn s (.bus (.read (offset 0x10) 4))) = .next (answered s (some s.errinfo))) ∧
    (∀ n : Nat, n % 4 = 0 → n < 0x8000 → UnspecifiedWhileBusy n →
      ∃ t d, step (withTurn s (.bus (.read (offset n) 4))) = .next t ∧
        t = answered { s with draws := t.draws } (some d)) ∧
    (∀ (n : Nat) (v : Word), n % 4 = 0 → n < 0x8000 → RefusedWhileBusy n →
      step (withTurn s (.bus (.write (offset n) 4 v))) = .next (busFailed s 0x06 (offset n) none)) ∧
    (∀ v : Word,
      step (withTurn s (.bus (.write (offset 0x04) 4 v))) = .next (answered (afterCtrlWrite s v) none) ∧
      step (withTurn s (.bus (.write (offset 0x08) 4 v))) = .next (answered (afterStatusWrite s v) none))

/-- 20_memory.md R65, in IDLE (while BUSY: R72). -/
def Obligations.ScalarWindow : Prop :=
  ∀ (s : State) (i : Fin 8) (v : Word), s.phase = .idle →
    step (withTurn s (.bus (.read (offset (0x20 + 4 * i.val)) 4))) = .next (answered s (some (s.sregs[i].setWidth 32))) ∧
    (255 < v.toNat → step (withTurn s (.bus (.write (offset (0x20 + 4 * i.val)) 4 v))) =
      .next (busFailed s 0x05 (offset (0x20 + 4 * i.val)) none)) ∧
    (v.toNat ≤ 255 → step (withTurn s (.bus (.write (offset (0x20 + 4 * i.val)) 4 v))) =
      .next (answered { s with sregs := s.sregs.set i (BitVec.ofNat 8 v.toNat) } none))

/-- 20_memory.md R66, in IDLE (while BUSY: R72). -/
def Obligations.LengthWindow : Prop :=
  ∀ (s : State) (i : Fin 8) (v : Word), s.phase = .idle →
    step (withTurn s (.bus (.read (offset (0x60 + 4 * i.val)) 4))) =
      .next (answered s (some ((s.pregs[i]).len.setWidth 32))) ∧
    (256 < v.toNat → step (withTurn s (.bus (.write (offset (0x60 + 4 * i.val)) 4 v))) =
      .next (busFailed s 0x05 (offset (0x60 + 4 * i.val)) none)) ∧
    (v.toNat ≤ 256 → ∃ t, step (withTurn s (.bus (.write (offset (0x60 + 4 * i.val)) 4 v))) = .next t ∧
      t = answered { s with
        pregs := s.pregs.set i { len := BitVec.ofNat 9 v.toNat, cells := (s.pregs[i]).cells } } none ∧
      (t.pregs[i]).value = canon ((s.pregs[i]).cells.toList.take v.toNat))

/-- 20_memory.md R67, in IDLE (while BUSY: R72). -/
def Obligations.CoefficientWindow : Prop :=
  ∀ (s : State) (p : Fin 8) (j : Fin 256) (v : Word), s.phase = .idle →
    step (withTurn s (.bus (.read (offset (0x1000 + 0x400 * p.val + 4 * j.val)) 4))) =
      .next (answered s (some ((s.pregs[p]).cells[j].setWidth 32))) ∧
    (255 < v.toNat → step (withTurn s (.bus (.write (offset (0x1000 + 0x400 * p.val + 4 * j.val)) 4 v))) =
      .next (busFailed s 0x05 (offset (0x1000 + 0x400 * p.val + 4 * j.val)) none)) ∧
    (v.toNat ≤ 255 → step (withTurn s (.bus (.write (offset (0x1000 + 0x400 * p.val + 4 * j.val)) 4 v))) =
      .next (answered { s with
        pregs := s.pregs.set p { len := (s.pregs[p]).len,
                                 cells := (s.pregs[p]).cells.set j (BitVec.ofNat 8 v.toNat) } } none))

/-- 20_memory.md R68, in IDLE (while BUSY: R72); the windows are read-only in every phase. -/
def Obligations.TableWindows : Prop :=
  ∀ (s : State) (i : Fin 256) (v : Word),
    (s.phase = .idle →
      step (withTurn s (.bus (.read (offset (0x4000 + 4 * i.val)) 4))) =
        .next (answered s (some (s.tables.log[i].setWidth 32))) ∧
      step (withTurn s (.bus (.read (offset (0x4400 + 4 * i.val)) 4))) =
        .next (answered s (some (s.tables.alog[i].setWidth 32)))) ∧
    step (withTurn s (.bus (.write (offset (0x4000 + 4 * i.val)) 4 v))) =
      .next (busFailed s 0x07 (offset (0x4000 + 4 * i.val)) none) ∧
    step (withTurn s (.bus (.write (offset (0x4400 + 4 * i.val)) 4 v))) =
      .next (busFailed s 0x07 (offset (0x4400 + 4 * i.val)) none)

/-- 20_memory.md R69, in IDLE (while BUSY: R72); both are read-only in every phase. -/
def Obligations.ResultWindows : Prop :=
  ∀ (s : State) (k : Fin 8) (v : Word),
    (s.phase = .idle →
      step (withTurn s (.bus (.read (offset 0x14) 4))) = .next (answered s (some (s.rootcnt.setWidth 32))) ∧
      ∃ d : Word, step (withTurn s (.bus (.read (offset (0x40 + 4 * k.val)) 4))) = .next (answered s (some d)) ∧
        ∀ j : Nat, j < 32 → d.getLsbD j = s.rootmap.getLsbD (32 * k.val + j)) ∧
    step (withTurn s (.bus (.write (offset 0x14) 4 v))) = .next (busFailed s 0x07 (offset 0x14) none) ∧
    step (withTurn s (.bus (.write (offset (0x40 + 4 * k.val)) 4 v))) =
      .next (busFailed s 0x07 (offset (0x40 + 4 * k.val)) none)

/-- 20_memory.md R70, in every phase (a CMD write while BUSY: R72), with the layout of the CTRL and STATUS words
(10_state.md R33, R34). -/
def Obligations.ControlWindows : Prop :=
  ∀ (s : State) (v : Word),
    step (withTurn s (.bus (.read (offset 0x00) 4))) = .next (answered s (some 0x47465045)) ∧
    (∃ d : Word, step (withTurn s (.bus (.read (offset 0x04) 4))) = .next (answered s (some d)) ∧
      d.toNat = 2 * s.ctrl.ieDone.toNat + 4 * s.ctrl.ieErr.toNat) ∧
    (∃ d : Word, step (withTurn s (.bus (.read (offset 0x08) 4))) = .next (answered s (some d)) ∧
      d.toNat = (if s.phase = .idle then 0 else 1) + 2 * s.status.ready.toNat + 4 * s.status.done.toNat +
        8 * s.status.err.toNat + 16 * s.status.zero.toNat + 32 * s.status.emult.toNat +
        256 * s.status.errcode.toNat) ∧
    step (withTurn s (.bus (.read (offset 0x0C) 4))) = .next (answered s (some s.lastcmd)) ∧
    step (withTurn s (.bus (.read (offset 0x10) 4))) = .next (answered s (some s.errinfo)) ∧
    step (withTurn s (.bus (.write (offset 0x04) 4 v))) = .next (answered (afterCtrlWrite s v) none) ∧
    step (withTurn s (.bus (.write (offset 0x08) 4 v))) = .next (answered (afterStatusWrite s v) none) ∧
    step (withTurn s (.bus (.write (offset 0x0C) 4 v))) = .next (
      if s.phase = .idle then
        answered { s with
          lastcmd := v, status := { s.status with done := false }, phase := .exec v } none
      else busFailed s 0x06 (offset 0x0C) none)

/-- 60_exceptions.md R230: the line, its reset value, and the ways it is cleared. -/
def Obligations.IrqFollowsDoneAndErr : Prop :=
  State.reset.irq = false ∧
  ∀ s : State,
    (s.irq = true ↔ (s.ctrl.ieDone = true ∧ s.status.done = true) ∨ (s.ctrl.ieErr = true ∧ s.status.err = true)) ∧
    (∀ v : Word, ∃ t, step (withTurn s (.bus (.write (offset 0x08) 4 v))) = .next t ∧
      t.irq = ((s.ctrl.ieDone && s.status.done && !v.getLsbD 2) || (s.ctrl.ieErr && s.status.err && !v.getLsbD 3))) ∧
    (∀ v : Word, v.getLsbD 0 = false → ∃ t, step (withTurn s (.bus (.write (offset 0x04) 4 v))) = .next t ∧
      t.irq = ((v.getLsbD 1 && s.status.done) || (v.getLsbD 2 && s.status.err))) ∧
    (∀ v : Word, v.getLsbD 0 = true → ∃ t, step (withTurn s (.bus (.write (offset 0x04) 4 v))) = .next t ∧
      t.irq = false) ∧
    (∃ t, step (withTurn s .hardReset) = .next t ∧ t.irq = false) ∧
    (s.phase = .idle → ∀ w, ∃ t, step (withTurn s (.bus (.write (offset 0x0C) 4 w))) = .next t ∧
      t.irq = (s.ctrl.ieErr && s.status.err))

/-! ## Polynomials -/

/-- 42_polynomial.md R151, on canonical operands. -/
def Obligations.PaddAddsCoefficients : Prop :=
  ∀ a b : Poly, canon a = a → canon b = b →
    canon (padd a b) = padd a b ∧
    (∀ j : Nat, coeff (padd a b) j = gadd (coeff a j) (coeff b j)) ∧
    (padd a b).length ≤ max a.length b.length ∧
    ((padd a b).length < max a.length b.length ↔
      a.length = b.length ∧ 0 < a.length ∧ leading a = leading b)

/-- 42_polynomial.md R152, on canonical operands and the built tables. -/
def Obligations.PmulConvolves : Prop :=
  ∀ a b : Poly, canon a = a → canon b = b →
    (a = [] ∨ b = [] → pmul builtTables a b = []) ∧
    (a ≠ [] → b ≠ [] → (pmul builtTables a b).length = a.length + b.length - 1) ∧
    (∀ i : Nat, coeff (pmul builtTables a b) i =
      fieldSum ((List.range (i + 1)).map fun j => gmul builtTables (coeff a j) (coeff b (i - j))))

/-- 42_polynomial.md R153 (90_conflicts.md C1): evaluation is the sum of `p[i] · x^i` with x^0 = 1, and Horner's scheme
gives the same value. -/
def Obligations.PevalIsHorner : Prop :=
  ∀ (p : Poly) (x : Byte),
    peval builtTables p x = p.foldr (fun c acc => gadd c (gmul builtTables acc x)) 0 ∧
    peval builtTables [] x = 0 ∧
    peval builtTables p 0 = coeff p 0 ∧
    (x ≠ 0 → peval builtTables p x =
      fieldSum ((List.range p.length).map fun i => gmul builtTables (coeff p i) (gpow builtTables x i)))

/-- The Euclidean division invariant (42_polynomial.md R155, R167 law 1). -/
def Obligations.EuclideanDivisionIsExact : Prop :=
  ∀ a b q r : Poly, canon a = a → canon b = b → b ≠ [] → pdivmod builtTables a b = (q, r) →
    padd (pmul builtTables q b) r = a ∧ r.length < b.length ∧
    canon q = q ∧ canon r = r ∧ q.length = a.length + 1 - b.length

/-- Polynomial addition and multiplication form a commutative ring in which every polynomial is its own negative
(42_polynomial.md R167 laws 2 and 3). -/
def Obligations.PolynomialRingLaws : Prop :=
  ∀ a b c : Poly, canon a = a → canon b = b → canon c = c →
    padd a a = [] ∧ padd a b = padd b a ∧ padd (padd a b) c = padd a (padd b c) ∧ padd a [] = a ∧
    pmul builtTables a b = pmul builtTables b a ∧
    pmul builtTables (pmul builtTables a b) c = pmul builtTables a (pmul builtTables b c) ∧
    pmul builtTables a [1] = a ∧
    pmul builtTables a (padd b c) = padd (pmul builtTables a b) (pmul builtTables a c)

/-- Evaluation is a homomorphism (42_polynomial.md R167 law 4). -/
def Obligations.EvaluationIsHomomorphism : Prop :=
  ∀ (a c : Poly) (x : Byte), canon a = a → canon c = c →
    peval builtTables (padd a c) x = gadd (peval builtTables a x) (peval builtTables c x) ∧
    peval builtTables (pmul builtTables a c) x = gmul builtTables (peval builtTables a x) (peval builtTables c x)

/-- The derivative is additive and obeys the product rule (42_polynomial.md R167 law 5). -/
def Obligations.DerivativeLaws : Prop :=
  ∀ a c : Poly, canon a = a → canon c = c →
    pder (padd a c) = padd (pder a) (pder c) ∧
    pder (pmul builtTables a c) = padd (pmul builtTables (pder a) c) (pmul builtTables a (pder c))

/-! ## Reed–Solomon derivations -/

/-- A generator polynomial is monic of degree n and, for n ≤ 255, its roots are exactly 2^1..2^n
(43_rs_derivations.md R190, R197 laws 1 and 2). -/
def Obligations.GeneratorRoots : Prop :=
  ∀ n : Nat,
    (generator builtTables n).length = n + 1 ∧ leading (generator builtTables n) = 1 ∧
    (n ≤ 255 → ∀ v : Byte, peval builtTables (generator builtTables n) v = 0 ↔
      ∃ i : Nat, 1 ≤ i ∧ i ≤ n ∧ v = gpow builtTables 2 i)

/-- Systematic Reed–Solomon encoding: the message shifted by x^k plus its remainder modulo generator(k) is a multiple of
generator(k), and all its k syndromes are zero (43_rs_derivations.md R197 law 3). -/
def Obligations.SystematicCodewordsHaveZeroSyndromes : Prop :=
  ∀ (m c : Poly) (k : Nat), canon m = m →
    c = padd (pmul builtTables m (monomial k 1))
      (pdivmod builtTables (pmul builtTables m (monomial k 1)) (generator builtTables k)).2 →
    syndromes builtTables c k = [] ∧ ∃ h : Poly, c = pmul builtTables h (generator builtTables k)

/-- One symbol error of magnitude e at power j in a word whose syndromes are zero: the syndromes are `e · 2^(i·j)`, so
the second over the first is the locator 2^j, and the first over the locator is e
(43_rs_derivations.md R197 law 4). -/
def Obligations.SingleErrorIsLocated : Prop :=
  ∀ (c : Poly) (e : Byte) (j t : Nat), canon c = c → e ≠ 0 → j ≤ 254 → syndromes builtTables c t = [] →
    (∀ i : Nat, 1 ≤ i → i ≤ t →
      peval builtTables (padd c (monomial j e)) (gpow builtTables 2 i) =
        gmul builtTables e (gpow builtTables 2 (i * j))) ∧
    (2 ≤ t →
      gdiv builtTables (peval builtTables (padd c (monomial j e)) (gpow builtTables 2 2))
        (peval builtTables (padd c (monomial j e)) (gpow builtTables 2 1)) = gpow builtTables 2 j ∧
      gdiv builtTables (peval builtTables (padd c (monomial j e)) (gpow builtTables 2 1)) (gpow builtTables 2 j) = e ∧
      roots builtTables [1, gpow builtTables 2 j] = [gdiv builtTables 1 (gpow builtTables 2 j)])
end

