-- ==== Sys2Proof/Laws/State.lean ====
section
/-! SUPPORT. One lemma per field and update of State, each true by rfl, so that no later proof unfolds a record update. -/

namespace Sys2Proof.Machine

/-! ## setSreg -/

@[simp] theorem State.setSreg_sregs (s : State) (i : RegIdx) (v : Byte) :
    (s.setSreg i v).sregs = s.sregs.set i v := rfl
@[simp] theorem State.setSreg_pregs (s : State) (i : RegIdx) (v : Byte) :
    (s.setSreg i v).pregs = s.pregs := rfl
@[simp] theorem State.setSreg_tables (s : State) (i : RegIdx) (v : Byte) :
    (s.setSreg i v).tables = s.tables := rfl
@[simp] theorem State.setSreg_rootmap (s : State) (i : RegIdx) (v : Byte) :
    (s.setSreg i v).rootmap = s.rootmap := rfl
@[simp] theorem State.setSreg_rootcnt (s : State) (i : RegIdx) (v : Byte) :
    (s.setSreg i v).rootcnt = s.rootcnt := rfl
@[simp] theorem State.setSreg_lastcmd (s : State) (i : RegIdx) (v : Byte) :
    (s.setSreg i v).lastcmd = s.lastcmd := rfl
@[simp] theorem State.setSreg_ctrl (s : State) (i : RegIdx) (v : Byte) :
    (s.setSreg i v).ctrl = s.ctrl := rfl
@[simp] theorem State.setSreg_status (s : State) (i : RegIdx) (v : Byte) :
    (s.setSreg i v).status = s.status := rfl
@[simp] theorem State.setSreg_errinfo (s : State) (i : RegIdx) (v : Byte) :
    (s.setSreg i v).errinfo = s.errinfo := rfl
@[simp] theorem State.setSreg_phase (s : State) (i : RegIdx) (v : Byte) :
    (s.setSreg i v).phase = s.phase := rfl
@[simp] theorem State.setSreg_schedule (s : State) (i : RegIdx) (v : Byte) :
    (s.setSreg i v).schedule = s.schedule := rfl
@[simp] theorem State.setSreg_resp (s : State) (i : RegIdx) (v : Byte) :
    (s.setSreg i v).resp = s.resp := rfl
@[simp] theorem State.setSreg_draws (s : State) (i : RegIdx) (v : Byte) :
    (s.setSreg i v).draws = s.draws := rfl

/-! ## setPreg -/

@[simp] theorem State.setPreg_sregs (s : State) (i : RegIdx) (r : PolyReg) :
    (s.setPreg i r).sregs = s.sregs := rfl
@[simp] theorem State.setPreg_pregs (s : State) (i : RegIdx) (r : PolyReg) :
    (s.setPreg i r).pregs = s.pregs.set i r := rfl
@[simp] theorem State.setPreg_tables (s : State) (i : RegIdx) (r : PolyReg) :
    (s.setPreg i r).tables = s.tables := rfl
@[simp] theorem State.setPreg_rootmap (s : State) (i : RegIdx) (r : PolyReg) :
    (s.setPreg i r).rootmap = s.rootmap := rfl
@[simp] theorem State.setPreg_rootcnt (s : State) (i : RegIdx) (r : PolyReg) :
    (s.setPreg i r).rootcnt = s.rootcnt := rfl
@[simp] theorem State.setPreg_lastcmd (s : State) (i : RegIdx) (r : PolyReg) :
    (s.setPreg i r).lastcmd = s.lastcmd := rfl
@[simp] theorem State.setPreg_ctrl (s : State) (i : RegIdx) (r : PolyReg) :
    (s.setPreg i r).ctrl = s.ctrl := rfl
@[simp] theorem State.setPreg_status (s : State) (i : RegIdx) (r : PolyReg) :
    (s.setPreg i r).status = s.status := rfl
@[simp] theorem State.setPreg_errinfo (s : State) (i : RegIdx) (r : PolyReg) :
    (s.setPreg i r).errinfo = s.errinfo := rfl
@[simp] theorem State.setPreg_phase (s : State) (i : RegIdx) (r : PolyReg) :
    (s.setPreg i r).phase = s.phase := rfl
@[simp] theorem State.setPreg_schedule (s : State) (i : RegIdx) (r : PolyReg) :
    (s.setPreg i r).schedule = s.schedule := rfl
@[simp] theorem State.setPreg_resp (s : State) (i : RegIdx) (r : PolyReg) :
    (s.setPreg i r).resp = s.resp := rfl
@[simp] theorem State.setPreg_draws (s : State) (i : RegIdx) (r : PolyReg) :
    (s.setPreg i r).draws = s.draws := rfl

/-! ## setPoly -/

@[simp] theorem State.setPoly_sregs (s : State) (i : RegIdx) (p : Poly) :
    (s.setPoly i p).sregs = s.sregs := rfl
@[simp] theorem State.setPoly_pregs (s : State) (i : RegIdx) (p : Poly) :
    (s.setPoly i p).pregs = s.pregs.set i (PolyReg.ofPoly p) := rfl
@[simp] theorem State.setPoly_tables (s : State) (i : RegIdx) (p : Poly) :
    (s.setPoly i p).tables = s.tables := rfl
@[simp] theorem State.setPoly_rootmap (s : State) (i : RegIdx) (p : Poly) :
    (s.setPoly i p).rootmap = s.rootmap := rfl
@[simp] theorem State.setPoly_rootcnt (s : State) (i : RegIdx) (p : Poly) :
    (s.setPoly i p).rootcnt = s.rootcnt := rfl
@[simp] theorem State.setPoly_lastcmd (s : State) (i : RegIdx) (p : Poly) :
    (s.setPoly i p).lastcmd = s.lastcmd := rfl
@[simp] theorem State.setPoly_ctrl (s : State) (i : RegIdx) (p : Poly) :
    (s.setPoly i p).ctrl = s.ctrl := rfl
@[simp] theorem State.setPoly_status (s : State) (i : RegIdx) (p : Poly) :
    (s.setPoly i p).status = s.status := rfl
@[simp] theorem State.setPoly_errinfo (s : State) (i : RegIdx) (p : Poly) :
    (s.setPoly i p).errinfo = s.errinfo := rfl
@[simp] theorem State.setPoly_phase (s : State) (i : RegIdx) (p : Poly) :
    (s.setPoly i p).phase = s.phase := rfl
@[simp] theorem State.setPoly_schedule (s : State) (i : RegIdx) (p : Poly) :
    (s.setPoly i p).schedule = s.schedule := rfl
@[simp] theorem State.setPoly_resp (s : State) (i : RegIdx) (p : Poly) :
    (s.setPoly i p).resp = s.resp := rfl
@[simp] theorem State.setPoly_draws (s : State) (i : RegIdx) (p : Poly) :
    (s.setPoly i p).draws = s.draws := rfl

/-! ## setRoots -/

@[simp] theorem State.setRoots_sregs (s : State) (r : List Byte) :
    (s.setRoots r).sregs = s.sregs := rfl
@[simp] theorem State.setRoots_pregs (s : State) (r : List Byte) :
    (s.setRoots r).pregs = s.pregs := rfl
@[simp] theorem State.setRoots_tables (s : State) (r : List Byte) :
    (s.setRoots r).tables = s.tables := rfl
@[simp] theorem State.setRoots_rootmap (s : State) (r : List Byte) :
    (s.setRoots r).rootmap = rootBits r := rfl
@[simp] theorem State.setRoots_rootcnt (s : State) (r : List Byte) :
    (s.setRoots r).rootcnt = BitVec.ofNat 9 r.length := rfl
@[simp] theorem State.setRoots_lastcmd (s : State) (r : List Byte) :
    (s.setRoots r).lastcmd = s.lastcmd := rfl
@[simp] theorem State.setRoots_ctrl (s : State) (r : List Byte) :
    (s.setRoots r).ctrl = s.ctrl := rfl
@[simp] theorem State.setRoots_status (s : State) (r : List Byte) :
    (s.setRoots r).status = s.status := rfl
@[simp] theorem State.setRoots_errinfo (s : State) (r : List Byte) :
    (s.setRoots r).errinfo = s.errinfo := rfl
@[simp] theorem State.setRoots_phase (s : State) (r : List Byte) :
    (s.setRoots r).phase = s.phase := rfl
@[simp] theorem State.setRoots_schedule (s : State) (r : List Byte) :
    (s.setRoots r).schedule = s.schedule := rfl
@[simp] theorem State.setRoots_resp (s : State) (r : List Byte) :
    (s.setRoots r).resp = s.resp := rfl
@[simp] theorem State.setRoots_draws (s : State) (r : List Byte) :
    (s.setRoots r).draws = s.draws := rfl

/-! ## setZero -/

@[simp] theorem State.setZero_sregs (s : State) (z : Bool) :
    (s.setZero z).sregs = s.sregs := rfl
@[simp] theorem State.setZero_pregs (s : State) (z : Bool) :
    (s.setZero z).pregs = s.pregs := rfl
@[simp] theorem State.setZero_tables (s : State) (z : Bool) :
    (s.setZero z).tables = s.tables := rfl
@[simp] theorem State.setZero_rootmap (s : State) (z : Bool) :
    (s.setZero z).rootmap = s.rootmap := rfl
@[simp] theorem State.setZero_rootcnt (s : State) (z : Bool) :
    (s.setZero z).rootcnt = s.rootcnt := rfl
@[simp] theorem State.setZero_lastcmd (s : State) (z : Bool) :
    (s.setZero z).lastcmd = s.lastcmd := rfl
@[simp] theorem State.setZero_ctrl (s : State) (z : Bool) :
    (s.setZero z).ctrl = s.ctrl := rfl
@[simp] theorem State.setZero_status (s : State) (z : Bool) :
    (s.setZero z).status = { s.status with zero := z } := rfl
@[simp] theorem State.setZero_errinfo (s : State) (z : Bool) :
    (s.setZero z).errinfo = s.errinfo := rfl
@[simp] theorem State.setZero_phase (s : State) (z : Bool) :
    (s.setZero z).phase = s.phase := rfl
@[simp] theorem State.setZero_schedule (s : State) (z : Bool) :
    (s.setZero z).schedule = s.schedule := rfl
@[simp] theorem State.setZero_resp (s : State) (z : Bool) :
    (s.setZero z).resp = s.resp := rfl
@[simp] theorem State.setZero_draws (s : State) (z : Bool) :
    (s.setZero z).draws = s.draws := rfl

/-! ## raise -/

@[simp] theorem State.raise_sregs (s : State) (e : ErrKind) (info : Word) :
    (s.raise e info).sregs = s.sregs := rfl
@[simp] theorem State.raise_pregs (s : State) (e : ErrKind) (info : Word) :
    (s.raise e info).pregs = s.pregs := rfl
@[simp] theorem State.raise_tables (s : State) (e : ErrKind) (info : Word) :
    (s.raise e info).tables = s.tables := rfl
@[simp] theorem State.raise_rootmap (s : State) (e : ErrKind) (info : Word) :
    (s.raise e info).rootmap = s.rootmap := rfl
@[simp] theorem State.raise_rootcnt (s : State) (e : ErrKind) (info : Word) :
    (s.raise e info).rootcnt = s.rootcnt := rfl
@[simp] theorem State.raise_lastcmd (s : State) (e : ErrKind) (info : Word) :
    (s.raise e info).lastcmd = s.lastcmd := rfl
@[simp] theorem State.raise_ctrl (s : State) (e : ErrKind) (info : Word) :
    (s.raise e info).ctrl = s.ctrl := rfl
@[simp] theorem State.raise_status (s : State) (e : ErrKind) (info : Word) :
    (s.raise e info).status = if s.status.err then { s.status with emult := true } else { s.status with err := true, errcode := e.code } := rfl
@[simp] theorem State.raise_errinfo (s : State) (e : ErrKind) (info : Word) :
    (s.raise e info).errinfo = if s.status.err then s.errinfo else info := rfl
@[simp] theorem State.raise_phase (s : State) (e : ErrKind) (info : Word) :
    (s.raise e info).phase = s.phase := rfl
@[simp] theorem State.raise_schedule (s : State) (e : ErrKind) (info : Word) :
    (s.raise e info).schedule = s.schedule := rfl
@[simp] theorem State.raise_resp (s : State) (e : ErrKind) (info : Word) :
    (s.raise e info).resp = s.resp := rfl
@[simp] theorem State.raise_draws (s : State) (e : ErrKind) (info : Word) :
    (s.raise e info).draws = s.draws := rfl

/-! ## clearErr -/

@[simp] theorem State.clearErr_sregs (s : State) :
    (s.clearErr).sregs = s.sregs := rfl
@[simp] theorem State.clearErr_pregs (s : State) :
    (s.clearErr).pregs = s.pregs := rfl
@[simp] theorem State.clearErr_tables (s : State) :
    (s.clearErr).tables = s.tables := rfl
@[simp] theorem State.clearErr_rootmap (s : State) :
    (s.clearErr).rootmap = s.rootmap := rfl
@[simp] theorem State.clearErr_rootcnt (s : State) :
    (s.clearErr).rootcnt = s.rootcnt := rfl
@[simp] theorem State.clearErr_lastcmd (s : State) :
    (s.clearErr).lastcmd = s.lastcmd := rfl
@[simp] theorem State.clearErr_ctrl (s : State) :
    (s.clearErr).ctrl = s.ctrl := rfl
@[simp] theorem State.clearErr_status (s : State) :
    (s.clearErr).status = { s.status with err := false, errcode := 0 } := rfl
@[simp] theorem State.clearErr_errinfo (s : State) :
    (s.clearErr).errinfo = 0 := rfl
@[simp] theorem State.clearErr_phase (s : State) :
    (s.clearErr).phase = s.phase := rfl
@[simp] theorem State.clearErr_schedule (s : State) :
    (s.clearErr).schedule = s.schedule := rfl
@[simp] theorem State.clearErr_resp (s : State) :
    (s.clearErr).resp = s.resp := rfl
@[simp] theorem State.clearErr_draws (s : State) :
    (s.clearErr).draws = s.draws := rfl

/-! ## accept -/

@[simp] theorem State.accept_sregs (s : State) (w : Word) :
    (s.accept w).sregs = s.sregs := rfl
@[simp] theorem State.accept_pregs (s : State) (w : Word) :
    (s.accept w).pregs = s.pregs := rfl
@[simp] theorem State.accept_tables (s : State) (w : Word) :
    (s.accept w).tables = s.tables := rfl
@[simp] theorem State.accept_rootmap (s : State) (w : Word) :
    (s.accept w).rootmap = s.rootmap := rfl
@[simp] theorem State.accept_rootcnt (s : State) (w : Word) :
    (s.accept w).rootcnt = s.rootcnt := rfl
@[simp] theorem State.accept_lastcmd (s : State) (w : Word) :
    (s.accept w).lastcmd = w := rfl
@[simp] theorem State.accept_ctrl (s : State) (w : Word) :
    (s.accept w).ctrl = s.ctrl := rfl
@[simp] theorem State.accept_status (s : State) (w : Word) :
    (s.accept w).status = { s.status with done := false } := rfl
@[simp] theorem State.accept_errinfo (s : State) (w : Word) :
    (s.accept w).errinfo = s.errinfo := rfl
@[simp] theorem State.accept_phase (s : State) (w : Word) :
    (s.accept w).phase = .exec w := rfl
@[simp] theorem State.accept_schedule (s : State) (w : Word) :
    (s.accept w).schedule = s.schedule := rfl
@[simp] theorem State.accept_resp (s : State) (w : Word) :
    (s.accept w).resp = s.resp := rfl
@[simp] theorem State.accept_draws (s : State) (w : Word) :
    (s.accept w).draws = s.draws := rfl

/-! ## complete -/

@[simp] theorem State.complete_sregs (s : State) :
    (s.complete).sregs = s.sregs := rfl
@[simp] theorem State.complete_pregs (s : State) :
    (s.complete).pregs = s.pregs := rfl
@[simp] theorem State.complete_tables (s : State) :
    (s.complete).tables = s.tables := rfl
@[simp] theorem State.complete_rootmap (s : State) :
    (s.complete).rootmap = s.rootmap := rfl
@[simp] theorem State.complete_rootcnt (s : State) :
    (s.complete).rootcnt = s.rootcnt := rfl
@[simp] theorem State.complete_lastcmd (s : State) :
    (s.complete).lastcmd = s.lastcmd := rfl
@[simp] theorem State.complete_ctrl (s : State) :
    (s.complete).ctrl = s.ctrl := rfl
@[simp] theorem State.complete_status (s : State) :
    (s.complete).status = { s.status with done := true } := rfl
@[simp] theorem State.complete_errinfo (s : State) :
    (s.complete).errinfo = s.errinfo := rfl
@[simp] theorem State.complete_phase (s : State) :
    (s.complete).phase = .idle := rfl
@[simp] theorem State.complete_schedule (s : State) :
    (s.complete).schedule = s.schedule := rfl
@[simp] theorem State.complete_resp (s : State) :
    (s.complete).resp = s.resp := rfl
@[simp] theorem State.complete_draws (s : State) :
    (s.complete).draws = s.draws := rfl

/-! ## bootstrap -/

@[simp] theorem State.bootstrap_sregs (s : State) :
    (s.bootstrap).sregs = s.sregs := rfl
@[simp] theorem State.bootstrap_pregs (s : State) :
    (s.bootstrap).pregs = s.pregs := rfl
@[simp] theorem State.bootstrap_tables (s : State) :
    (s.bootstrap).tables = builtTables := rfl
@[simp] theorem State.bootstrap_rootmap (s : State) :
    (s.bootstrap).rootmap = s.rootmap := rfl
@[simp] theorem State.bootstrap_rootcnt (s : State) :
    (s.bootstrap).rootcnt = s.rootcnt := rfl
@[simp] theorem State.bootstrap_lastcmd (s : State) :
    (s.bootstrap).lastcmd = s.lastcmd := rfl
@[simp] theorem State.bootstrap_ctrl (s : State) :
    (s.bootstrap).ctrl = s.ctrl := rfl
@[simp] theorem State.bootstrap_status (s : State) :
    (s.bootstrap).status = { s.status with ready := true } := rfl
@[simp] theorem State.bootstrap_errinfo (s : State) :
    (s.bootstrap).errinfo = s.errinfo := rfl
@[simp] theorem State.bootstrap_phase (s : State) :
    (s.bootstrap).phase = .idle := rfl
@[simp] theorem State.bootstrap_schedule (s : State) :
    (s.bootstrap).schedule = s.schedule := rfl
@[simp] theorem State.bootstrap_resp (s : State) :
    (s.bootstrap).resp = s.resp := rfl
@[simp] theorem State.bootstrap_draws (s : State) :
    (s.bootstrap).draws = s.draws := rfl

/-! ## popTurn -/

@[simp] theorem State.popTurn_sregs (s : State) :
    (s.popTurn).sregs = s.sregs := rfl
@[simp] theorem State.popTurn_pregs (s : State) :
    (s.popTurn).pregs = s.pregs := rfl
@[simp] theorem State.popTurn_tables (s : State) :
    (s.popTurn).tables = s.tables := rfl
@[simp] theorem State.popTurn_rootmap (s : State) :
    (s.popTurn).rootmap = s.rootmap := rfl
@[simp] theorem State.popTurn_rootcnt (s : State) :
    (s.popTurn).rootcnt = s.rootcnt := rfl
@[simp] theorem State.popTurn_lastcmd (s : State) :
    (s.popTurn).lastcmd = s.lastcmd := rfl
@[simp] theorem State.popTurn_ctrl (s : State) :
    (s.popTurn).ctrl = s.ctrl := rfl
@[simp] theorem State.popTurn_status (s : State) :
    (s.popTurn).status = s.status := rfl
@[simp] theorem State.popTurn_errinfo (s : State) :
    (s.popTurn).errinfo = s.errinfo := rfl
@[simp] theorem State.popTurn_phase (s : State) :
    (s.popTurn).phase = s.phase := rfl
@[simp] theorem State.popTurn_schedule (s : State) :
    (s.popTurn).schedule = s.schedule.tail := rfl
@[simp] theorem State.popTurn_resp (s : State) :
    (s.popTurn).resp = s.resp := rfl
@[simp] theorem State.popTurn_draws (s : State) :
    (s.popTurn).draws = s.draws := rfl

/-! ## respond -/

@[simp] theorem State.respond_sregs (s : State) (data : Option Word) (faulted : Bool) :
    (s.respond data faulted).sregs = s.sregs := rfl
@[simp] theorem State.respond_pregs (s : State) (data : Option Word) (faulted : Bool) :
    (s.respond data faulted).pregs = s.pregs := rfl
@[simp] theorem State.respond_tables (s : State) (data : Option Word) (faulted : Bool) :
    (s.respond data faulted).tables = s.tables := rfl
@[simp] theorem State.respond_rootmap (s : State) (data : Option Word) (faulted : Bool) :
    (s.respond data faulted).rootmap = s.rootmap := rfl
@[simp] theorem State.respond_rootcnt (s : State) (data : Option Word) (faulted : Bool) :
    (s.respond data faulted).rootcnt = s.rootcnt := rfl
@[simp] theorem State.respond_lastcmd (s : State) (data : Option Word) (faulted : Bool) :
    (s.respond data faulted).lastcmd = s.lastcmd := rfl
@[simp] theorem State.respond_ctrl (s : State) (data : Option Word) (faulted : Bool) :
    (s.respond data faulted).ctrl = s.ctrl := rfl
@[simp] theorem State.respond_status (s : State) (data : Option Word) (faulted : Bool) :
    (s.respond data faulted).status = s.status := rfl
@[simp] theorem State.respond_errinfo (s : State) (data : Option Word) (faulted : Bool) :
    (s.respond data faulted).errinfo = s.errinfo := rfl
@[simp] theorem State.respond_phase (s : State) (data : Option Word) (faulted : Bool) :
    (s.respond data faulted).phase = s.phase := rfl
@[simp] theorem State.respond_schedule (s : State) (data : Option Word) (faulted : Bool) :
    (s.respond data faulted).schedule = s.schedule := rfl
@[simp] theorem State.respond_resp (s : State) (data : Option Word) (faulted : Bool) :
    (s.respond data faulted).resp = some { data := data, error := faulted && Config.busErrResp } := rfl
@[simp] theorem State.respond_draws (s : State) (data : Option Word) (faulted : Bool) :
    (s.respond data faulted).draws = s.draws := rfl

end Sys2Proof.Machine
end

