-- ==== Sys2Proof/Laws/Ops.lean ====
section
/-! SUPPORT. One lemma for each shared operation that says all it does; later proofs cite these and do not unfold the
operation. -/

namespace Sys2Proof.Machine

/-! ## Registers -/

/-- Reading scalar register j after a write of register i. -/
theorem State.sreg_setSreg (s : State) (i j : RegIdx) (v : Byte) :
    (s.setSreg i v).sreg j = if i = j then v else s.sreg j := by
  simp only [State.sreg, State.setSreg, Fin.getElem_fin, Vector.getElem_set, Fin.val_inj]

/-- Reading polynomial register j, as stored, after register i was replaced. -/
theorem State.preg_setPreg (s : State) (i j : RegIdx) (r : PolyReg) :
    (s.setPreg i r).pregs[j] = if i = j then r else s.pregs[j] := by
  simp only [State.setPreg, Fin.getElem_fin, Vector.getElem_set, Fin.val_inj]

/-- Entry j of a tabulated function. -/
@[simp] theorem tabulate_getElem (f : Nat → Byte) (j : Nat) (h : j < 256) : (tabulate f)[j] = f j := by
  simp [tabulate]

/-- The cells of an engine write: p[j] below |p|, 0 from there up (10_state.md R24). -/
theorem PolyReg.ofPoly_cell (p : Poly) (j : Nat) (h : j < 256) : (PolyReg.ofPoly p).cells[j] = coeff p j := by
  simp [PolyReg.ofPoly]

/-- LEN after an engine write of a polynomial that fits (10_state.md R24). -/
theorem PolyReg.ofPoly_len (p : Poly) (h : p.length ≤ 256) : (PolyReg.ofPoly p).len.toNat = p.length := by
  simp only [PolyReg.ofPoly, BitVec.toNat_ofNat]; omega

/-- The first LEN cells of an engine write are the polynomial. -/
theorem PolyReg.ofPoly_take (p : Poly) (h : p.length ≤ 256) :
    (PolyReg.ofPoly p).cells.toList.take (PolyReg.ofPoly p).len.toNat = p := by
  rw [PolyReg.ofPoly_len p h]
  apply List.ext_getElem
  · simp [h]
  · intro j h1 h2
    simp [PolyReg.ofPoly, coeff, List.getD_eq_getElem?_getD, h2]

/-- A polynomial an engine write stored reads back trimmed; a canonical one reads back as it was
(10_state.md R23, R24). -/
theorem PolyReg.value_ofPoly (p : Poly) (h : p.length ≤ 256) : (PolyReg.ofPoly p).value = canon p := by
  rw [PolyReg.value, PolyReg.ofPoly_take p h]

/-- Trimming never lengthens. -/
theorem canon_length_le (l : Poly) : (canon l).length ≤ l.length :=
  (List.rdropWhile_prefix _ l).length_le

/-- Trimming twice is trimming once. -/
@[simp] theorem canon_canon (l : Poly) : canon (canon l) = canon l :=
  List.rdropWhile_idempotent _ l

/-- The zero polynomial is canonical. -/
@[simp] theorem canon_nil : canon [] = [] := rfl

/-- The value of a register is canonical and has at most 256 coefficients. -/
theorem PolyReg.value_canonical (r : PolyReg) : canon r.value = r.value ∧ r.value.length ≤ 256 := by
  refine ⟨canon_canon _, (canon_length_le _).trans ?_⟩
  simp

/-! ## Errors and completion -/

/-- All that recording an error does (60_exceptions.md R222). -/
theorem State.raise_eq (s : State) (e : ErrKind) (info : Word) :
    s.raise e info = { s with
      status := statusAfterError s.status e.code, errinfo := errinfoAfterError s info } := rfl

/-- All that a failing command does (60_exceptions.md R223). -/
theorem State.failCommand_eq (s : State) (e : ErrKind) (w : Word) :
    s.failCommand e w = commandFailed s e.code w := rfl

/-- All that the end of a command with a scalar result does. -/
theorem State.finishScalar_eq (s : State) (d : RegIdx) (r : Byte) :
    s.finishScalar d r = { s with
      sregs := s.sregs.set d r
      status := { s.status with zero := r == 0, done := true }
      phase := .idle } := rfl

/-- All that the end of a command with a polynomial result does. -/
theorem State.finishPoly_eq (s : State) (d : RegIdx) (p : Poly) :
    s.finishPoly d p = { s with
      pregs := s.pregs.set d (PolyReg.ofPoly p)
      status := { s.status with zero := p.length == 0, done := true }
      phase := .idle } := rfl

/-! ## Turns -/

/-- Taking off the turn that was put in front. -/
@[simp] theorem withTurn_popTurn (s : State) (t : Turn) : (withTurn s t).popTurn = s := rfl

/-- The step of a host transaction. -/
theorem step_bus (s : State) (x : Txn) : step (withTurn s (.bus x)) = .next (s.transact x) := rfl

/-- The step of a hardware reset. -/
theorem step_hardReset (s : State) : step (withTurn s .hardReset) = .next s.hardReset := rfl

/-- The step of an engine turn. -/
theorem step_engine (s : State) : step (withTurn s .engine) = s.engineTurn := rfl

/-- The step when the engine moves, whether its turn is listed or the schedule is empty. -/
theorem step_of_engineMoves (s : State) (h : EngineMoves s) : step s = s.popTurn.engineTurn := by
  obtain h | ⟨q, h⟩ := h
  · have : s.popTurn = s := by cases s; simp_all [State.popTurn]
    simp [step, h, this]
  · simp [step, h]

/-- Who moved in a step: the engine, the host with a transaction, or the reset input. -/
theorem step_cases (s : State) :
    (EngineMoves s ∧ step s = s.popTurn.engineTurn) ∨
    (∃ x q, s.schedule = .bus x :: q ∧ step s = .next (s.popTurn.transact x)) ∨
    (∃ q, s.schedule = .hardReset :: q ∧ step s = .next s.popTurn.hardReset) := by
  match h : s.schedule with
  | [] => exact .inl ⟨.inl h, step_of_engineMoves s (.inl h)⟩
  | .engine :: q => exact .inl ⟨.inr ⟨q, h⟩, step_of_engineMoves s (.inr ⟨q, h⟩)⟩
  | .bus x :: q => exact .inr (.inl ⟨x, q, rfl, by simp [step, h]⟩)
  | .hardReset :: q => exact .inr (.inr ⟨q, rfl, by simp [step, h]⟩)

/-- What the engine's turn does in each phase (10_state.md R37). -/
theorem State.engineTurn_cases (s : State) :
    (s.phase = .boot ∧ s.engineTurn = .next s.bootstrap) ∨
    (s.phase = .idle ∧ s.engineTurn = .next s) ∨
    (∃ w, s.phase = .exec w ∧ s.engineTurn = s.runCommand w) := by
  cases h : s.phase with
  | boot => exact .inl ⟨rfl, by simp [State.engineTurn, h]⟩
  | idle => exact .inr (.inl ⟨rfl, by simp [State.engineTurn, h]⟩)
  | exec w => exact .inr (.inr ⟨w, rfl, by simp [State.engineTurn, h]⟩)

/-- What running an accepted word does: the decoded command's meaning, or EILL. -/
theorem State.runCommand_cases (s : State) (w : Word) :
    (∃ i, decodeWord w = .ok i ∧ s.runCommand w = exec i s) ∨
    (∃ e, decodeWord w = .error e ∧ s.runCommand w = .next (commandFailed s 0x01 w)) := by
  cases h : decodeWord w with
  | ok i => exact .inl ⟨i, rfl, by simp [State.runCommand, h]⟩
  | error e => exact .inr ⟨e, rfl, by simp [State.runCommand, h, State.failCommand_eq, ErrKind.code]⟩

/-! ## The bus -/

/-- All that a faulting read does (60_exceptions.md R224). -/
theorem State.readFault_eq (s : State) (a : Offset) : s.readFault a = busFailed s 0x07 a (some 0) := by
  simp [State.readFault, State.respond, State.raise_eq, busFailed, offsetInfo, ErrKind.code, errinfoAfterError]

/-- All that a faulting write does (60_exceptions.md R224). -/
theorem State.writeFault_eq (s : State) (e : ErrKind) (a : Offset) :
    s.writeFault e a = busFailed s e.code a none := by
  simp [State.writeFault, State.respond, State.raise_eq, busFailed, offsetInfo, errinfoAfterError]

/-- All that an answer without a fault does. -/
theorem State.respond_ok (s : State) (data : Option Word) : s.respond data false = answered s data := by
  simp [State.respond, answered]

/-- All that a read can do (20_memory.md R62, R71, R72). -/
theorem State.busRead_cases (s : State) (a : Offset) (width : Nat) :
    s.busRead a width = busFailed s 0x07 a (some 0) ∨
    (s.busy = true ∧ (targetOf a).isData = true ∧
      s.busRead a width = { answered s (some (Config.freeWord s.draws)) with draws := s.draws + 1 }) ∨
    s.busRead a width = answered s (some (s.regWord (targetOf a))) := by
  simp only [State.busRead, State.readFault_eq, State.respond_ok]
  split
  · exact .inl rfl
  · split
    · exact .inl rfl
    · split
      · rename_i h
        simp only [Bool.and_eq_true] at h
        exact .inr (.inl ⟨h.1, h.2, rfl⟩)
      · exact .inr (.inr rfl)

/-- All that a write to CMD, S, LEN or CELL can do (20_memory.md R65 to R67, R72). -/
theorem State.writeChecked_cases (s : State) (a : Offset) (ok : Bool) (written : State) :
    (s.busy = true ∧ s.writeChecked a ok written = busFailed s 0x06 a none) ∨
    (s.busy = false ∧ ok = false ∧ s.writeChecked a ok written = busFailed s 0x05 a none) ∨
    (s.busy = false ∧ ok = true ∧ s.writeChecked a ok written = answered written none) := by
  cases hb : s.busy <;> cases ok <;>
    simp [State.writeChecked, hb, State.writeFault_eq, State.respond_ok, ErrKind.code]

/-- BUSY is the phase not being IDLE (10_state.md R37). -/
theorem State.busy_iff (s : State) : s.busy = true ↔ s.phase ≠ .idle := by
  simp [State.busy]

/-- Not BUSY is the phase IDLE. -/
theorem State.not_busy_iff (s : State) : s.busy = false ↔ s.phase = .idle := by
  simp [State.busy]

end Sys2Proof.Machine
end

