-- ==== Sys2Proof/Laws/Bus.lean ====
section
/-! SUPPORT. What each range of offsets of the window names (20_memory.md R61), so that no later proof unfolds the
address map. -/

namespace Sys2Proof.Machine

/-- An offset of the window as a number. -/
theorem offset_toNat (n : Nat) (h : n < 0x8000) : (offset n).toNat = n := by
  simp only [offset, BitVec.toNat_ofNat]
  omega

/-- A misaligned or narrow access is a bad one (20_memory.md R62). -/
theorem badAccess_true (a : Offset) (width : Nat) (h : width ≠ 4 ∨ a.toNat % 4 ≠ 0) : badAccess a width = true := by
  simp only [badAccess, Bool.or_eq_true, bne_iff_ne]
  refine h.imp id fun h e => h ?_
  simpa using congrArg BitVec.toNat e

/-- An aligned word access is a good one (20_memory.md R62). -/
theorem badAccess_false (n : Nat) (h : n % 4 = 0) : badAccess (offset n) 4 = false := by
  simp only [badAccess, bne_self_eq_false, Bool.false_or, bne_eq_false_iff_eq]
  apply BitVec.eq_of_toNat_eq
  simp [offset]
  omega

/-- A scalar register's range. -/
theorem targetOf_sreg_range (n : Nat) (h : 0x20 ≤ n ∧ n < 0x40) :
    targetOf (offset n) = .sreg (Fin.ofNat 8 ((n - 0x20) / 4)) := by
  have e := offset_toNat n (by omega)
  simp only [targetOf, e]
  iterate 7 rw [if_neg (by omega)]
  rw [if_pos (by omega)]

/-- A ROOTMAP word's range. -/
theorem targetOf_rootmap_range (n : Nat) (h : 0x40 ≤ n ∧ n < 0x60) :
    targetOf (offset n) = .rootmap (Fin.ofNat 8 ((n - 0x40) / 4)) := by
  have e := offset_toNat n (by omega)
  simp only [targetOf, e]
  iterate 8 rw [if_neg (by omega)]
  rw [if_pos (by omega)]

/-- A length's range. -/
theorem targetOf_len_range (n : Nat) (h : 0x60 ≤ n ∧ n < 0x80) :
    targetOf (offset n) = .len (Fin.ofNat 8 ((n - 0x60) / 4)) := by
  have e := offset_toNat n (by omega)
  simp only [targetOf, e]
  iterate 9 rw [if_neg (by omega)]
  rw [if_pos (by omega)]

/-- A cell's range. -/
theorem targetOf_cell_range (n : Nat) (h : 0x1000 ≤ n ∧ n < 0x3000) :
    targetOf (offset n) = .cell (Fin.ofNat 8 ((n - 0x1000) / 0x400)) (Fin.ofNat 256 ((n - 0x1000) % 0x400 / 4)) := by
  have e := offset_toNat n (by omega)
  simp only [targetOf, e]
  iterate 11 rw [if_neg (by omega)]
  rw [if_pos (by omega)]

/-- A LOG entry's range. -/
theorem targetOf_log_range (n : Nat) (h : 0x4000 ≤ n ∧ n < 0x4400) :
    targetOf (offset n) = .log (BitVec.ofNat 8 ((n - 0x4000) / 4)) := by
  have e := offset_toNat n (by omega)
  simp only [targetOf, e]
  iterate 13 rw [if_neg (by omega)]
  rw [if_pos (by omega)]

/-- An ALOG entry's range. -/
theorem targetOf_alog_range (n : Nat) (h : 0x4400 ≤ n ∧ n < 0x4800) :
    targetOf (offset n) = .alog (BitVec.ofNat 8 ((n - 0x4400) / 4)) := by
  have e := offset_toNat n (by omega)
  simp only [targetOf, e]
  iterate 14 rw [if_neg (by omega)]
  rw [if_pos (by omega)]

/-- The reserved offsets name nothing. -/
theorem targetOf_reserved (n : Nat) (h : ReservedOffset n) : targetOf (offset n) = .reserved := by
  have e := offset_toNat n (by unfold ReservedOffset at h; omega)
  simp only [targetOf, e]
  obtain h | h | h | h := h
  · iterate 6 rw [if_neg (by omega)]
    rw [if_pos (by omega)]
  · iterate 10 rw [if_neg (by omega)]
    rw [if_pos (by omega)]
  · iterate 12 rw [if_neg (by omega)]
    rw [if_pos (by omega)]
  · iterate 15 rw [if_neg (by omega)]

/-- The offsets whose write is refused while BUSY name CMD, a scalar register, a length or a cell. -/
theorem targetOf_refused (n : Nat) (h : RefusedWhileBusy n) :
    targetOf (offset n) = .cmd ∨ (∃ i, targetOf (offset n) = .sreg i) ∨ (∃ i, targetOf (offset n) = .len i) ∨
    ∃ p j, targetOf (offset n) = .cell p j := by
  obtain rfl | h | h | h := h
  · exact .inl rfl
  · exact .inr (.inl ⟨_, targetOf_sreg_range n h⟩)
  · exact .inr (.inr (.inl ⟨_, targetOf_len_range n h⟩))
  · exact .inr (.inr (.inr ⟨_, _, targetOf_cell_range n h⟩))

/-- The read-only offsets name ID, ERRINFO, ROOTCNT, a ROOTMAP word or a table entry. -/
theorem targetOf_readOnly (n : Nat) (h : ReadOnlyOffset n) :
    targetOf (offset n) = .id ∨ targetOf (offset n) = .errinfo ∨ targetOf (offset n) = .rootcnt ∨
    (∃ k, targetOf (offset n) = .rootmap k) ∨ (∃ v, targetOf (offset n) = .log v) ∨
    ∃ i, targetOf (offset n) = .alog i := by
  obtain rfl | rfl | rfl | h | h := h
  · exact .inl rfl
  · exact .inr (.inl rfl)
  · exact .inr (.inr (.inl rfl))
  · exact .inr (.inr (.inr (.inl ⟨_, targetOf_rootmap_range n h⟩)))
  · by_cases h' : n < 0x4400
    · exact .inr (.inr (.inr (.inr (.inl ⟨_, targetOf_log_range n ⟨h.1, h'⟩⟩))))
    · exact .inr (.inr (.inr (.inr (.inr ⟨_, targetOf_alog_range n ⟨by omega, h.2⟩⟩))))

/-- The offsets whose read is unspecified while BUSY name data registers and tables. -/
theorem targetOf_unspecified (n : Nat) (h : UnspecifiedWhileBusy n) : (targetOf (offset n)).isData = true := by
  obtain rfl | h | h | h := h
  · rfl
  · by_cases h1 : n < 0x40
    · rw [targetOf_sreg_range n ⟨h.1, h1⟩]; rfl
    · by_cases h2 : n < 0x60
      · rw [targetOf_rootmap_range n ⟨by omega, h2⟩]; rfl
      · rw [targetOf_len_range n ⟨by omega, h.2⟩]; rfl
  · rw [targetOf_cell_range n h]; rfl
  · by_cases h1 : n < 0x4400
    · rw [targetOf_log_range n ⟨h.1, h1⟩]; rfl
    · rw [targetOf_alog_range n ⟨by omega, h.2⟩]; rfl

/-- S_i at 0x20 + 4 i. -/
theorem targetOf_sreg (i : Fin 8) : targetOf (offset (0x20 + 4 * i.val)) = .sreg i := by
  revert i; decide

/-- ROOTMAP_k at 0x40 + 4 k. -/
theorem targetOf_rootmap (k : Fin 8) : targetOf (offset (0x40 + 4 * k.val)) = .rootmap k := by
  revert k; decide

/-- LEN_i at 0x60 + 4 i. -/
theorem targetOf_len (i : Fin 8) : targetOf (offset (0x60 + 4 * i.val)) = .len i := by
  revert i; decide

/-- CELL_p[j] at 0x1000 + 0x400 p + 4 j. -/
theorem targetOf_cell (p : Fin 8) (j : Fin 256) :
    targetOf (offset (0x1000 + 0x400 * p.val + 4 * j.val)) = .cell p j := by
  rw [targetOf_cell_range _ (by omega)]
  refine congrArg₂ _ (Fin.ext ?_) (Fin.ext ?_) <;> simp only [Fin.ofNat] <;> omega

/-- LOG[v] at 0x4000 + 4 v. -/
theorem targetOf_log (v : Fin 256) : targetOf (offset (0x4000 + 4 * v.val)) = .log (BitVec.ofFin v) := by
  revert v; decide +kernel

/-- ALOG[i] at 0x4400 + 4 i. -/
theorem targetOf_alog (i : Fin 256) : targetOf (offset (0x4400 + 4 * i.val)) = .alog (BitVec.ofFin i) := by
  revert i; decide +kernel

/-! ## Reads and writes by target -/

/-- A read of a target, aligned and whole (20_memory.md R71, R72). -/
theorem State.busRead_target (s : State) (n : Nat) (h4 : n % 4 = 0) (t : Target) (ht : targetOf (offset n) = t) :
    s.busRead (offset n) 4 =
      if t = .reserved then busFailed s 0x07 (offset n) (some 0)
      else if s.busy && t.isData then
        { answered s (some (Config.freeWord s.draws)) with draws := s.draws + 1 }
      else answered s (some (s.regWord t)) := by
  simp only [State.busRead, badAccess_false n h4, ht, State.readFault_eq, State.respond_ok]
  rfl

/-- A write to CMD, S, LEN or CELL (20_memory.md R65 to R67, R72). -/
theorem State.writeChecked_eq (s : State) (a : Offset) (ok : Bool) (written : State) :
    s.writeChecked a ok written =
      if s.busy then busFailed s 0x06 a none
      else if ok then answered written none else busFailed s 0x05 a none := by
  cases hb : s.busy <;> cases ok <;>
    simp [State.writeChecked, hb, State.writeFault_eq, State.respond_ok, ErrKind.code]

/-! ## Writes of the control registers -/

/-- All that a STATUS write does (20_memory.md R70). -/
theorem State.writeStatus_eq (s : State) (v : Word) : s.writeStatus v = afterStatusWrite s v := by
  simp only [State.writeStatus, afterStatusWrite, State.clearErr]
  cases v.getLsbD 2 <;> cases v.getLsbD 3 <;> cases v.getLsbD 5 <;> simp

/-- All that a soft reset does (70_reset_and_hazards.md R262). -/
theorem State.softReset_eq (s : State) : s.softReset = afterSoftReset s := by
  cases h : s.phase <;> simp [State.softReset, afterSoftReset, State.reset, h]

/-- All that a CTRL write does (20_memory.md R70). -/
theorem State.writeCtrl_eq (s : State) (v : Word) : s.writeCtrl v = afterCtrlWrite s v := by
  simp only [State.writeCtrl, afterCtrlWrite, State.softReset_eq]
  rfl

/-- A write of CTRL as a transaction. -/
theorem State.busWrite_ctrl (s : State) (v : Word) :
    s.busWrite (offset 0x04) 4 v = answered (afterCtrlWrite s v) none := by
  simp [State.busWrite, badAccess_false 0x04 rfl, show targetOf (offset 0x04) = .ctrl from rfl, State.respond_ok,
    State.writeCtrl_eq]

/-- A write of STATUS as a transaction. -/
theorem State.busWrite_status (s : State) (v : Word) :
    s.busWrite (offset 0x08) 4 v = answered (afterStatusWrite s v) none := by
  simp [State.busWrite, badAccess_false 0x08 rfl, show targetOf (offset 0x08) = .status from rfl, State.respond_ok,
    State.writeStatus_eq]

/-- A write of CMD as a transaction (30_encoding.md R105; 20_memory.md R72). -/
theorem State.busWrite_cmd (s : State) (v : Word) :
    s.busWrite (offset 0x0C) 4 v =
      if s.busy then busFailed s 0x06 (offset 0x0C) none else answered (s.accept v) none := by
  simp [State.busWrite, badAccess_false 0x0C rfl, show targetOf (offset 0x0C) = .cmd from rfl, State.writeChecked_eq]

end Sys2Proof.Machine
end

