-- ==== Sys2Proof/Laws/Encoding.lean ====
section
/-! SUPPORT. The fields of a word and the words of the two formats as numbers, so that encoding facts are linear
arithmetic. -/

namespace Sys2Proof

/-- An append as a number. -/
theorem toNat_append_eq {n m : Nat} (x : BitVec n) (y : BitVec m) : (x ++ y).toNat = x.toNat * 2 ^ m + y.toNat := by
  rw [BitVec.toNat_append, ← Nat.shiftLeft_add_eq_or_of_lt y.isLt, Nat.shiftLeft_eq]

theorem opcField_toNat (w : Word) : (opcField w).toNat = w.toNat / 2 ^ 24 % 2 ^ 8 := by
  simp [opcField, Nat.shiftRight_eq_div_pow]
theorem dField_toNat (w : Word) : (dField w).toNat = w.toNat / 2 ^ 20 % 2 ^ 4 := by
  simp [dField, Nat.shiftRight_eq_div_pow]
theorem aField_toNat (w : Word) : (aField w).toNat = w.toNat / 2 ^ 16 % 2 ^ 4 := by
  simp [aField, Nat.shiftRight_eq_div_pow]
theorem bField_toNat (w : Word) : (bField w).toNat = w.toNat / 2 ^ 12 % 2 ^ 4 := by
  simp [bField, Nat.shiftRight_eq_div_pow]
theorem eField_toNat (w : Word) : (eField w).toNat = w.toNat / 2 ^ 8 % 2 ^ 4 := by
  simp [eField, Nat.shiftRight_eq_div_pow]
theorem zField_toNat (w : Word) : (zField w).toNat = w.toNat % 2 ^ 8 := by
  simp [zField]
theorem immField_toNat (w : Word) : (immField w).toNat = w.toNat % 2 ^ 16 := by
  simp [immField]

/-- A register number in its field. -/
theorem regBits_toNat (r : RegIdx) : (regBits r).toNat = r.val := by
  have := r.isLt
  simp only [regBits, BitVec.toNat_ofNat]
  omega

/-- A format R word as a number (30_encoding.md R91). -/
theorem formatR_toNat (opc : Byte) (d a b e : BitVec 4) :
    (formatR opc d a b e).toNat =
      opc.toNat * 2 ^ 24 + d.toNat * 2 ^ 20 + a.toNat * 2 ^ 16 + b.toNat * 2 ^ 12 + e.toNat * 2 ^ 8 := by
  simp only [formatR, toNat_append_eq, BitVec.toNat_zero]
  ring

/-- A format I word as a number (30_encoding.md R92). -/
theorem formatI_toNat (opc : Byte) (d a : BitVec 4) (imm : BitVec 16) :
    (formatI opc d a imm).toNat = opc.toNat * 2 ^ 24 + d.toNat * 2 ^ 20 + a.toNat * 2 ^ 16 + imm.toNat := by
  simp only [formatI, toNat_append_eq]
  ring

/-- OPC of a format R word. -/
theorem opcField_formatR (opc : Byte) (d a b e : BitVec 4) : opcField (formatR opc d a b e) = opc := by
  apply BitVec.eq_of_toNat_eq
  rw [opcField_toNat, formatR_toNat]
  omega

/-- OPC of a format I word. -/
theorem opcField_formatI (opc : Byte) (d a : BitVec 4) (imm : BitVec 16) : opcField (formatI opc d a imm) = opc := by
  apply BitVec.eq_of_toNat_eq
  rw [opcField_toNat, formatI_toNat]
  omega

/-! ## The fields of the words of the two formats -/

theorem dField_formatR (opc : Byte) (d a b e : BitVec 4) : dField (formatR opc d a b e) = d := by
  apply BitVec.eq_of_toNat_eq
  rw [dField_toNat, formatR_toNat]
  omega
theorem aField_formatR (opc : Byte) (d a b e : BitVec 4) : aField (formatR opc d a b e) = a := by
  apply BitVec.eq_of_toNat_eq
  rw [aField_toNat, formatR_toNat]
  omega
theorem bField_formatR (opc : Byte) (d a b e : BitVec 4) : bField (formatR opc d a b e) = b := by
  apply BitVec.eq_of_toNat_eq
  rw [bField_toNat, formatR_toNat]
  omega
theorem eField_formatR (opc : Byte) (d a b e : BitVec 4) : eField (formatR opc d a b e) = e := by
  apply BitVec.eq_of_toNat_eq
  rw [eField_toNat, formatR_toNat]
  omega
theorem zField_formatR (opc : Byte) (d a b e : BitVec 4) : zField (formatR opc d a b e) = 0 := by
  apply BitVec.eq_of_toNat_eq
  rw [zField_toNat, formatR_toNat]
  simp only [BitVec.ofNat_eq_ofNat, BitVec.toNat_ofNat]
  omega
theorem dField_formatI (opc : Byte) (d a : BitVec 4) (imm : BitVec 16) : dField (formatI opc d a imm) = d := by
  apply BitVec.eq_of_toNat_eq
  rw [dField_toNat, formatI_toNat]
  omega
theorem aField_formatI (opc : Byte) (d a : BitVec 4) (imm : BitVec 16) : aField (formatI opc d a imm) = a := by
  apply BitVec.eq_of_toNat_eq
  rw [aField_toNat, formatI_toNat]
  omega
theorem immField_formatI (opc : Byte) (d a : BitVec 4) (imm : BitVec 16) : immField (formatI opc d a imm) = imm := by
  apply BitVec.eq_of_toNat_eq
  rw [immField_toNat, formatI_toNat]
  omega

/-- A word is fixed by the six fields of format R. -/
theorem eq_of_fieldsR (w v : Word) (h : opcField w = opcField v) (hd : dField w = dField v) (ha : aField w = aField v)
    (hb : bField w = bField v) (he : eField w = eField v) (hz : zField w = zField v) : w = v := by
  apply BitVec.eq_of_toNat_eq
  have h1 := congrArg BitVec.toNat h
  have h2 := congrArg BitVec.toNat hd
  have h3 := congrArg BitVec.toNat ha
  have h4 := congrArg BitVec.toNat hb
  have h5 := congrArg BitVec.toNat he
  have h6 := congrArg BitVec.toNat hz
  simp only [opcField_toNat, dField_toNat, aField_toNat, bField_toNat, eField_toNat, zField_toNat] at *
  have := w.isLt
  have := v.isLt
  omega

/-- A word is fixed by the four fields of format I. -/
theorem eq_of_fieldsI (w v : Word) (h : opcField w = opcField v) (hd : dField w = dField v) (ha : aField w = aField v)
    (hi : immField w = immField v) : w = v := by
  apply BitVec.eq_of_toNat_eq
  have h1 := congrArg BitVec.toNat h
  have h2 := congrArg BitVec.toNat hd
  have h3 := congrArg BitVec.toNat ha
  have h4 := congrArg BitVec.toNat hi
  simp only [opcField_toNat, dField_toNat, aField_toNat, immField_toNat] at *
  have := w.isLt
  have := v.isLt
  omega

/-! ## Registers and unused fields -/

/-- A register field reads the register whose bits it holds. -/
theorem register_regBits (r : RegIdx) : register (regBits r) = .ok r := by
  revert r; decide +kernel

/-- A register field that reads holds that register's bits. -/
theorem regBits_of_register (f : BitVec 4) (r : RegIdx) (h : register f = .ok r) : regBits r = f := by
  unfold register at h
  split at h
  · cases h
    apply BitVec.eq_of_toNat_eq
    simp [regBits]
  · cases h

/-- An unused field that passes the check is 0. -/
theorem eq_zero_of_unused {n : Nat} (f : BitVec n) (h : unused f = .ok ()) : f = 0 := by
  unfold unused at h
  split at h
  · assumption
  · cases h

/-- A decoding step that succeeds. -/
theorem bind_ok {α β : Type} (x : Except DecodeError α) (f : α → Except DecodeError β) (b : β)
    (h : (x >>= f) = .ok b) : ∃ a, x = .ok a ∧ f a = .ok b := by
  cases x with
  | error e => cases h
  | ok a => exact ⟨a, rfl, h⟩

/-! ## What each operand form answers: only the words of its format -/

/-- Format R with D, A and B. -/
theorem decodeDAB_ok {mk : RegIdx → RegIdx → RegIdx → Instr} {w : Word} {i : Instr} (h : decodeDAB mk w = .ok i) :
    ∃ d a b, i = mk d a b ∧ w = formatR (opcField w) (regBits d) (regBits a) (regBits b) 0 := by
  unfold decodeDAB at h
  obtain ⟨_, h1, h⟩ := bind_ok _ _ _ h
  obtain ⟨_, h2, h⟩ := bind_ok _ _ _ h
  obtain ⟨d, h3, h⟩ := bind_ok _ _ _ h
  obtain ⟨a, h4, h⟩ := bind_ok _ _ _ h
  obtain ⟨b, h5, h⟩ := bind_ok _ _ _ h
  cases h
  refine ⟨d, a, b, rfl, eq_of_fieldsR _ _ ?_ ?_ ?_ ?_ ?_ ?_⟩ <;>
    simp only [opcField_formatR, dField_formatR, aField_formatR, bField_formatR, eField_formatR, zField_formatR,
      regBits_of_register _ _ h3, regBits_of_register _ _ h4, regBits_of_register _ _ h5, eq_zero_of_unused _ h1,
      eq_zero_of_unused _ h2]

/-- Format R with D, A, B and E. -/
theorem decodeDABE_ok {mk : RegIdx → RegIdx → RegIdx → RegIdx → Instr} {w : Word} {i : Instr} (h : decodeDABE mk w = .ok i) :
    ∃ d e a b, d ≠ e ∧ i = mk d e a b ∧ w = formatR (opcField w) (regBits d) (regBits a) (regBits b) (regBits e) := by
  unfold decodeDABE at h
  obtain ⟨_, h1, h⟩ := bind_ok _ _ _ h
  obtain ⟨d, h3, h⟩ := bind_ok _ _ _ h
  obtain ⟨a, h4, h⟩ := bind_ok _ _ _ h
  obtain ⟨b, h5, h⟩ := bind_ok _ _ _ h
  obtain ⟨e, h6, h⟩ := bind_ok _ _ _ h
  split at h
  · cases h
  cases h
  refine ⟨d, e, a, b, by assumption, rfl, eq_of_fieldsR _ _ ?_ ?_ ?_ ?_ ?_ ?_⟩ <;>
    simp only [opcField_formatR, dField_formatR, aField_formatR, bField_formatR, eField_formatR, zField_formatR,
      regBits_of_register _ _ h3, regBits_of_register _ _ h4, regBits_of_register _ _ h5, eq_zero_of_unused _ h1,
      regBits_of_register _ _ h6]

/-- Format R with D and A. -/
theorem decodeDA_ok {mk : RegIdx → RegIdx → Instr} {w : Word} {i : Instr} (h : decodeDA mk w = .ok i) :
    ∃ d a, i = mk d a ∧ w = formatR (opcField w) (regBits d) (regBits a) 0 0 := by
  unfold decodeDA at h
  obtain ⟨_, h0, h⟩ := bind_ok _ _ _ h
  obtain ⟨_, h1, h⟩ := bind_ok _ _ _ h
  obtain ⟨_, h2, h⟩ := bind_ok _ _ _ h
  obtain ⟨d, h3, h⟩ := bind_ok _ _ _ h
  obtain ⟨a, h4, h⟩ := bind_ok _ _ _ h
  cases h
  refine ⟨d, a, rfl, eq_of_fieldsR _ _ ?_ ?_ ?_ ?_ ?_ ?_⟩ <;>
    simp only [opcField_formatR, dField_formatR, aField_formatR, bField_formatR, eField_formatR, zField_formatR,
      regBits_of_register _ _ h3, regBits_of_register _ _ h4, eq_zero_of_unused _ h0, eq_zero_of_unused _ h1,
      eq_zero_of_unused _ h2]

/-- Format R with A. -/
theorem decodeA_ok {mk : RegIdx → Instr} {w : Word} {i : Instr} (h : decodeA mk w = .ok i) :
    ∃ a, i = mk a ∧ w = formatR (opcField w) 0 (regBits a) 0 0 := by
  unfold decodeA at h
  obtain ⟨_, hm, h⟩ := bind_ok _ _ _ h
  obtain ⟨_, h0, h⟩ := bind_ok _ _ _ h
  obtain ⟨_, h1, h⟩ := bind_ok _ _ _ h
  obtain ⟨_, h2, h⟩ := bind_ok _ _ _ h
  obtain ⟨a, h4, h⟩ := bind_ok _ _ _ h
  cases h
  refine ⟨a, rfl, eq_of_fieldsR _ _ ?_ ?_ ?_ ?_ ?_ ?_⟩ <;>
    simp only [opcField_formatR, dField_formatR, aField_formatR, bField_formatR, eField_formatR, zField_formatR,
      regBits_of_register _ _ h4, eq_zero_of_unused _ hm, eq_zero_of_unused _ h0, eq_zero_of_unused _ h1,
      eq_zero_of_unused _ h2]

/-- Format I with D, A and the immediate. -/
theorem decodeDAI_ok {mk : RegIdx → RegIdx → BitVec 16 → Instr} {w : Word} {i : Instr} (h : decodeDAI mk w = .ok i) :
    ∃ d a n, i = mk d a n ∧ w = formatI (opcField w) (regBits d) (regBits a) n := by
  unfold decodeDAI at h
  obtain ⟨d, h3, h⟩ := bind_ok _ _ _ h
  obtain ⟨a, h4, h⟩ := bind_ok _ _ _ h
  cases h
  refine ⟨d, a, _, rfl, eq_of_fieldsI _ _ ?_ ?_ ?_ ?_⟩ <;>
    simp only [opcField_formatI, dField_formatI, aField_formatI, immField_formatI, regBits_of_register _ _ h3,
      regBits_of_register _ _ h4]

/-- Format I with D and the immediate. -/
theorem decodeDI_ok {mk : RegIdx → BitVec 16 → Instr} {w : Word} {i : Instr} (h : decodeDI mk w = .ok i) :
    ∃ d n, i = mk d n ∧ w = formatI (opcField w) (regBits d) 0 n := by
  unfold decodeDI at h
  obtain ⟨_, h1, h⟩ := bind_ok _ _ _ h
  obtain ⟨d, h3, h⟩ := bind_ok _ _ _ h
  cases h
  refine ⟨d, _, rfl, eq_of_fieldsI _ _ ?_ ?_ ?_ ?_⟩ <;>
    simp only [opcField_formatI, dField_formatI, aField_formatI, immField_formatI, regBits_of_register _ _ h3,
      eq_zero_of_unused _ h1]

end Sys2Proof
end

