-- ==== Sys2Proof/Laws/Exec.lean ====
section
/-! SUPPORT. What running a command can do, said once for all commands: the error it raises, or the fields it may
write. -/

namespace Sys2Proof.Machine

/-- The capacity test as a statement about lengths (42_polynomial.md R156). -/
theorem productTooLong_iff (x y : Poly) :
    productTooLong x y = true ↔ 0 < x.length ∧ 0 < y.length ∧ 256 < x.length + y.length - 1 := by
  simp only [productTooLong, Bool.and_eq_true, decide_eq_true_eq, and_assoc]
  rfl

/-- A command that raises an error does only what a failing command does (60_exceptions.md R223). -/
theorem exec_of_commandError (i : Instr) (s : State) (code : Byte) (h : commandError s i = some code) :
    exec i s = .next (commandFailed s code (encode i)) := by
  cases i with
  | gdiv d a b =>
    simp only [commandError, Option.ite_none_right_eq_some, Option.some.injEq] at h
    obtain ⟨h, rfl⟩ := h
    simp only [exec, execGdiv, State.sreg, h, if_true, State.failCommand_eq, ErrKind.code]
  | pdiv q r a b =>
    simp only [commandError, Option.ite_none_right_eq_some, Option.some.injEq] at h
    obtain ⟨h, rfl⟩ := h
    simp only [exec, execPdiv, State.poly, h, List.length_nil, if_true, State.failCommand_eq, ErrKind.code]
  | pmod d a b =>
    simp only [commandError, Option.ite_none_right_eq_some, Option.some.injEq] at h
    obtain ⟨h, rfl⟩ := h
    simp only [exec, execPmod, State.poly, h, List.length_nil, if_true, State.failCommand_eq, ErrKind.code]
  | pmul d a b =>
    simp only [commandError, Option.ite_none_right_eq_some, Option.some.injEq] at h
    obtain ⟨h, rfl⟩ := h
    simp only [exec, execPmul, (productTooLong_iff (s.poly a) (s.poly b)).2 h, if_true, State.failCommand_eq,
      ErrKind.code]
  | rsgen d n =>
    simp only [commandError, Option.ite_none_right_eq_some, Option.some.injEq] at h
    obtain ⟨h, rfl⟩ := h
    have h' : Config.pcap < immediate n + 1 := Nat.succ_lt_succ h
    simp only [exec, execRsgen, h', if_true, State.failCommand_eq, ErrKind.code]
  | synd d a n =>
    simp only [commandError, Option.ite_none_right_eq_some, Option.some.injEq] at h
    obtain ⟨h, rfl⟩ := h
    have h' : Config.pcap < immediate n := h
    simp only [exec, execSynd, h', if_true, State.failCommand_eq, ErrKind.code]
  | nop => cases h
  | gadd => cases h
  | gmul => cases h
  | gmulr => cases h
  | gpow => cases h
  | ptrim => cases h
  | padd => cases h
  | peval => cases h
  | pder => cases h
  | roots => cases h

/-- The fields a command that raises no error may write. -/
structure Completed (s t : State) : Prop where
  phase    : t.phase = .idle
  status   : t.status = { s.status with zero := t.status.zero, done := true }
  errinfo  : t.errinfo = s.errinfo
  tables   : t.tables = s.tables
  lastcmd  : t.lastcmd = s.lastcmd
  ctrl     : t.ctrl = s.ctrl
  schedule : t.schedule = s.schedule
  resp     : t.resp = s.resp
  draws    : t.draws = s.draws

/-- A command that raises no error completes. -/
theorem exec_of_noError (i : Instr) (s : State) (h : commandError s i = none) :
    ∃ t, exec i s = .next t ∧ Completed s t := by
  cases i with
  | gdiv d a b =>
    have h' : ¬ s.sreg b = 0 := fun e => by simp [commandError, show s.sregs[b] = 0 from e] at h
    exact ⟨_, if_neg h', rfl, rfl, rfl, rfl, rfl, rfl, rfl, rfl, rfl⟩
  | pdiv q r a b =>
    have h' : ¬ (s.poly b).length = 0 := fun e => by
      simp only [commandError, ite_eq_right_iff, reduceCtorEq, imp_false] at h
      exact h (List.length_eq_zero_iff.1 e)
    exact ⟨_, if_neg h', rfl, rfl, rfl, rfl, rfl, rfl, rfl, rfl, rfl⟩
  | pmod d a b =>
    have h' : ¬ (s.poly b).length = 0 := fun e => by
      simp only [commandError, ite_eq_right_iff, reduceCtorEq, imp_false] at h
      exact h (List.length_eq_zero_iff.1 e)
    exact ⟨_, if_neg h', rfl, rfl, rfl, rfl, rfl, rfl, rfl, rfl, rfl⟩
  | pmul d a b =>
    have h' : ¬ productTooLong (s.poly a) (s.poly b) = true := fun e => by
      have e' := (productTooLong_iff _ _).1 e
      simp only [commandError, ite_eq_right_iff, reduceCtorEq, imp_false] at h
      exact h e'
    exact ⟨_, if_neg h', rfl, rfl, rfl, rfl, rfl, rfl, rfl, rfl, rfl⟩
  | rsgen d n =>
    have h' : ¬ Config.pcap < immediate n + 1 := fun e => by
      simp only [commandError, ite_eq_right_iff, reduceCtorEq, imp_false] at h
      exact h (Nat.lt_of_succ_lt_succ e)
    exact ⟨_, if_neg h', rfl, rfl, rfl, rfl, rfl, rfl, rfl, rfl, rfl⟩
  | synd d a n =>
    have h' : ¬ Config.pcap < immediate n := fun e => by
      simp only [commandError, ite_eq_right_iff, reduceCtorEq, imp_false] at h
      exact h e
    exact ⟨_, if_neg h', rfl, rfl, rfl, rfl, rfl, rfl, rfl, rfl, rfl⟩
  | nop => exact ⟨_, rfl, rfl, rfl, rfl, rfl, rfl, rfl, rfl, rfl, rfl⟩
  | gadd => exact ⟨_, rfl, rfl, rfl, rfl, rfl, rfl, rfl, rfl, rfl, rfl⟩
  | gmul => exact ⟨_, rfl, rfl, rfl, rfl, rfl, rfl, rfl, rfl, rfl, rfl⟩
  | gmulr => exact ⟨_, rfl, rfl, rfl, rfl, rfl, rfl, rfl, rfl, rfl, rfl⟩
  | gpow => exact ⟨_, rfl, rfl, rfl, rfl, rfl, rfl, rfl, rfl, rfl, rfl⟩
  | ptrim => exact ⟨_, rfl, rfl, rfl, rfl, rfl, rfl, rfl, rfl, rfl, rfl⟩
  | padd => exact ⟨_, rfl, rfl, rfl, rfl, rfl, rfl, rfl, rfl, rfl, rfl⟩
  | peval => exact ⟨_, rfl, rfl, rfl, rfl, rfl, rfl, rfl, rfl, rfl, rfl⟩
  | pder => exact ⟨_, rfl, rfl, rfl, rfl, rfl, rfl, rfl, rfl, rfl, rfl⟩
  | roots a =>
    refine ⟨_, rfl, ?_⟩
    generalize roots s.tables (s.poly a) = r
    exact ⟨rfl, rfl, rfl, rfl, rfl, rfl, rfl, rfl, rfl⟩

/-- Every command answers a next state. -/
theorem exec_next (i : Instr) (s : State) : ∃ t, exec i s = .next t := by
  cases h : commandError s i with
  | none => exact (exec_of_noError i s h).imp fun _ h => h.1
  | some code => exact ⟨_, exec_of_commandError i s code h⟩

end Sys2Proof.Machine
end

