-- ==== Sys2Proof/Laws/PerInstr.lean ====
section
/-! SUPPORT. Facts of every instruction as syntax, one lemma per constructor. -/

namespace Sys2Proof.Laws

/-- The word of an instruction with the opcode's byte in bits 31:24 (30_encoding.md R90, R97). -/
def opcodeByte : Instr → Byte
  | .nop => 0x00
  | .gadd _ _ _ => 0x10
  | .gmul _ _ _ => 0x11
  | .gmulr _ _ _ => 0x12
  | .gdiv _ _ _ => 0x13
  | .gpow _ _ _ => 0x14
  | .ptrim _ _ => 0x20
  | .padd _ _ _ => 0x21
  | .pmul _ _ _ => 0x22
  | .pdiv _ _ _ _ => 0x23
  | .pmod _ _ _ => 0x24
  | .peval _ _ _ => 0x25
  | .pder _ _ => 0x26
  | .rsgen _ _ => 0x30
  | .synd _ _ _ => 0x31
  | .roots _ => 0x32

/-- The encoding of i carries its row's opcode in bits 31:24. -/
def OpcodeByte.Statement (i : Instr) : Prop := opcField (encode i) = opcodeByte i

theorem OpcodeByte.nop : OpcodeByte.Statement .nop := rfl
theorem OpcodeByte.gadd (d a b : RegIdx) : OpcodeByte.Statement (.gadd d a b) := opcField_formatR _ _ _ _ _
theorem OpcodeByte.gmul (d a b : RegIdx) : OpcodeByte.Statement (.gmul d a b) := opcField_formatR _ _ _ _ _
theorem OpcodeByte.gmulr (d a b : RegIdx) : OpcodeByte.Statement (.gmulr d a b) := opcField_formatR _ _ _ _ _
theorem OpcodeByte.gdiv (d a b : RegIdx) : OpcodeByte.Statement (.gdiv d a b) := opcField_formatR _ _ _ _ _
theorem OpcodeByte.gpow (d a : RegIdx) (n : BitVec 16) : OpcodeByte.Statement (.gpow d a n) := opcField_formatI _ _ _ _
theorem OpcodeByte.ptrim (d a : RegIdx) : OpcodeByte.Statement (.ptrim d a) := opcField_formatR _ _ _ _ _
theorem OpcodeByte.padd (d a b : RegIdx) : OpcodeByte.Statement (.padd d a b) := opcField_formatR _ _ _ _ _
theorem OpcodeByte.pmul (d a b : RegIdx) : OpcodeByte.Statement (.pmul d a b) := opcField_formatR _ _ _ _ _
theorem OpcodeByte.pdiv (q r a b : RegIdx) : OpcodeByte.Statement (.pdiv q r a b) := opcField_formatR _ _ _ _ _
theorem OpcodeByte.pmod (d a b : RegIdx) : OpcodeByte.Statement (.pmod d a b) := opcField_formatR _ _ _ _ _
theorem OpcodeByte.peval (d a b : RegIdx) : OpcodeByte.Statement (.peval d a b) := opcField_formatR _ _ _ _ _
theorem OpcodeByte.pder (d a : RegIdx) : OpcodeByte.Statement (.pder d a) := opcField_formatR _ _ _ _ _
theorem OpcodeByte.rsgen (d : RegIdx) (n : BitVec 16) : OpcodeByte.Statement (.rsgen d n) := opcField_formatI _ _ _ _
theorem OpcodeByte.synd (d a : RegIdx) (t : BitVec 16) : OpcodeByte.Statement (.synd d a t) := opcField_formatI _ _ _ _
theorem OpcodeByte.roots (a : RegIdx) : OpcodeByte.Statement (.roots a) := opcField_formatR _ _ _ _ _

end Sys2Proof.Laws
end

