-- ==== Sys2Proof/Machine/Asm.lean ====
section
/-! DEFINITION. The assembler syntax of 30_encoding.md R101 and the pseudo-instructions of R102: from one line of text, as
a list of characters, to the command it names. No step of the machine uses it. -/

namespace Sys2Proof.Machine

/-- One operand of a line (30_encoding.md R101). -/
inductive AsmOperand where
  | s (i : RegIdx)
  | p (i : RegIdx)
  | imm (n : BitVec 16)
  deriving DecidableEq, Repr

/-- White space inside a line. -/
def asmSpace (c : Char) : Bool := c == ' ' || c == '\t'

/-- White space taken off both ends. -/
def asmTrim (l : List Char) : List Char := (l.dropWhile asmSpace).rdropWhile asmSpace

/-- The pieces between commas. -/
def asmSplit : List Char → List (List Char)
  | [] => [[]]
  | c :: cs =>
    if c == ',' then [] :: asmSplit cs
    else match asmSplit cs with
      | [] => [[c]]
      | h :: t => (c :: h) :: t

/-- The value of a digit in a base up to 16. -/
def asmDigit (base : Nat) (c : Char) : Option Nat :=
  let n := c.toNat
  let v := if 48 ≤ n && n ≤ 57 then n - 48
    else if 97 ≤ n && n ≤ 102 then n - 87
    else if 65 ≤ n && n ≤ 70 then n - 55
    else 16
  if v < base then some v else none

/-- The number a list of digits writes. -/
def asmDigits (base : Nat) : List Char → Nat → Option Nat
  | [], acc => some acc
  | c :: cs, acc => (asmDigit base c).bind fun d => asmDigits base cs (acc * base + d)

/-- A decimal or `0x`-prefixed hexadecimal number (30_encoding.md R101). -/
def asmNumber : List Char → Option Nat
  | [] => none
  | [c] => asmDigits 10 [c] 0
  | '0' :: 'x' :: [] => none
  | '0' :: 'x' :: cs => asmDigits 16 cs 0
  | cs => asmDigits 10 cs 0

/-- A register number 0..7 written as one digit. -/
def asmReg : List Char → Option RegIdx
  | [c] => (asmDigit 8 c).map (Fin.ofNat 8)
  | _ => none

/-- One operand: `Sn`, `Pn`, or `#n` with n in 0..65535 (30_encoding.md R101). -/
def asmOperand (l : List Char) : Option AsmOperand :=
  match asmTrim l with
  | 'S' :: cs => (asmReg cs).map .s
  | 'P' :: cs => (asmReg cs).map .p
  | '#' :: cs => (asmNumber cs).bind fun n => if n < 65536 then some (.imm (BitVec.ofNat 16 n)) else none
  | _ => none

/-- The operand list of a line; none where one does not parse. -/
def asmOperands (l : List Char) : Option (List AsmOperand) :=
  if asmTrim l = [] then some [] else (asmSplit l).mapM asmOperand

/-- The command of a mnemonic, in capitals, with its operands (30_encoding.md R101, R102). -/
def asmCommand (m : List Char) (ops : List AsmOperand) : Option Instr :=
  match String.ofList m, ops with
  | "NOP", [] => some .nop
  | "GADD", [.s d, .s a, .s b] => some (.gadd d a b)
  | "GMUL", [.s d, .s a, .s b] => some (.gmul d a b)
  | "GMULR", [.s d, .s a, .s b] => some (.gmulr d a b)
  | "GDIV", [.s d, .s a, .s b] => some (.gdiv d a b)
  | "GPOW", [.s d, .s a, .imm n] => some (.gpow d a n)
  | "PTRIM", [.p d, .p a] => some (.ptrim d a)
  | "PADD", [.p d, .p a, .p b] => some (.padd d a b)
  | "PMUL", [.p d, .p a, .p b] => some (.pmul d a b)
  | "PDIV", [.p q, .p r, .p a, .p b] => some (.pdiv q r a b)
  | "PMOD", [.p d, .p a, .p b] => some (.pmod d a b)
  | "PEVAL", [.s d, .p a, .s b] => some (.peval d a b)
  | "PDER", [.p d, .p a] => some (.pder d a)
  | "RSGEN", [.p d, .imm n] => some (.rsgen d n)
  | "SYND", [.p d, .p a, .imm t] => some (.synd d a t)
  | "ROOTS", [.p a] => some (.roots a)
  | "GSUB", [.s d, .s a, .s b] => some (Pseudo.gsub d a b)
  | "PSUB", [.p d, .p a, .p b] => some (Pseudo.psub d a b)
  | "GCLR", [.s d] => some (Pseudo.gclr d)
  | "GMOV", [.s d, .s a] => some (Pseudo.gmov d a)
  | "GSQR", [.s d, .s a] => some (Pseudo.gsqr d a)
  | "GINV", [.s d, .s a] => some (Pseudo.ginv d a)
  | "PCLR", [.p d] => some (Pseudo.pclr d)
  | "PMOV", [.p d, .p a] => some (Pseudo.pmov d a)
  | "PSQR", [.p d, .p a] => some (Pseudo.psqr d a)
  | _, _ => none

/-- One line: a comment from `;` on is dropped, the mnemonic is read in any case, the operands are separated by commas
(30_encoding.md R101). none is a line that does not parse, `some none` one with no command. -/
def assembleLine (line : List Char) : Option (Option Instr) :=
  let l := asmTrim (line.takeWhile (· != ';'))
  if l = [] then some none
  else
    let m := (l.takeWhile fun c => !asmSpace c).map Char.toUpper
    (asmOperands (l.dropWhile fun c => !asmSpace c)).bind fun ops => (asmCommand m ops).map some

end Sys2Proof.Machine
end

