-- ==== Sys2Proof/Tests/Slice0.lean ====
section
/-! SUPPORT. Tests of one step or one word each, with results from 95_test_vectors.md or worked from the rule named, and
the witnesses that the hypotheses of the statements can be met. -/

set_option Elab.async false

namespace Sys2Proof.Tests

open Sys2Proof.Machine

/-! ## Helpers -/

/-- The next state of an outcome, if it is one. -/
def nextOf (o : Host.Outcome State Fault Refusal) : Option State :=
  match o with
  | .next s => some s
  | .fault _ => none
  | .refused _ => none

/-- The state after reset and bootstrap (95_test_vectors.md §3.3). -/
def ready : State := State.reset.bootstrap

/-- `ready` with scalar registers S1 and S2 set. -/
def withS (a b : Byte) : State := (ready.setSreg 1 a).setSreg 2 b

/-- `ready` with polynomial registers P1 and P2 set. -/
def withP (a b : Poly) : State := (ready.setPoly 1 a).setPoly 2 b

/-- A field of the state after the command word w is run, on the tables the bootstrap builds, as listed
(builtTables_eq_listed). -/
def ran {α : Type} (s : State) (w : Nat) (f : State → α) : Option α :=
  (nextOf (step ({ s with tables := listedTables }.withFetchWord 32 w))).map f

/-- A field of the state after one turn. -/
def after {α : Type} (s : State) (t : Turn) (f : State → α) : Option α := (nextOf (step (withTurn s t))).map f

/-- A host read of a word. -/
def rd (n : Nat) : Turn := .bus (.read (offset n) 4)

/-- A host write of a word. -/
def wr (n : Nat) (v : Word) : Turn := .bus (.write (offset n) 4 v)

/-- The data of the last answer. -/
def answer (s : State) : Option Word := s.resp.bind BusResp.data

/-- The generator polynomial of degree 5 (95_test_vectors.md §1). -/
def gen5 : Poly := [38, 197, 229, 63, 62, 1]

/-- The codeword of 95_test_vectors.md §4.2. -/
def code5 : Poly := [104, 126, 197, 250, 75, 11, 40, 23]

/-! ## WellFormed: the one check refuses an ill-formed term (30_encoding.md R99) -/

theorem test_wellFormed_refuses_pdiv_same_destinations : ¬ WellFormed (.pdiv 1 1 2 3) := by decide
theorem test_wellFormed_accepts_pdiv : WellFormed (.pdiv 1 4 1 4) := by decide

/-! ## Decoding: a word of every command, written out from 30_encoding.md R97 (most are in 95_test_vectors.md) -/

theorem test_decode_nop : decodeWord 0x00000000 = .ok .nop := rfl
theorem test_decode_gadd : decodeWord 0x10123000 = .ok (.gadd 1 2 3) := rfl
theorem test_decode_gmul : decodeWord 0x11312000 = .ok (.gmul 3 1 2) := rfl
theorem test_decode_gmulr : decodeWord 0x12412000 = .ok (.gmulr 4 1 2) := rfl
theorem test_decode_gdiv : decodeWord 0x13765000 = .ok (.gdiv 7 6 5) := rfl
theorem test_decode_gpow : decodeWord 0x1421FFFF = .ok (.gpow 2 1 65535) := rfl
theorem test_decode_ptrim : decodeWord 0x20210000 = .ok (.ptrim 2 1) := rfl
theorem test_decode_padd : decodeWord 0x21012000 = .ok (.padd 0 1 2) := rfl
theorem test_decode_pmul : decodeWord 0x22312000 = .ok (.pmul 3 1 2) := rfl
theorem test_decode_pdiv : decodeWord 0x23123400 = .ok (.pdiv 1 4 2 3) := rfl
theorem test_decode_pmod : decodeWord 0x24512000 = .ok (.pmod 5 1 2) := rfl
theorem test_decode_peval : decodeWord 0x25011000 = .ok (.peval 0 1 1) := rfl
theorem test_decode_pder : decodeWord 0x26210000 = .ok (.pder 2 1) := rfl
theorem test_decode_rsgen : decodeWord 0x30200005 = .ok (.rsgen 2 5) := rfl
theorem test_decode_synd : decodeWord 0x31310005 = .ok (.synd 3 1 5) := rfl
theorem test_decode_roots : decodeWord 0x32010000 = .ok (.roots 1) := rfl

/-- 95_test_vectors.md §4.4: every word listed as EILL. -/
theorem test_decode_refuses :
    ([0x00000001, 0x10012001, 0x10012100, 0x10812000, 0x10092000, 0x1001A000, 0x14F20001, 0x15000000, 0xFF000000,
      0x20213000, 0x23112100, 0x23312800, 0x30210005, 0x32110000, 0x32010001, 0x32090000] : List Word).all
      (fun w => !(decodeWord w).isOk) = true := by decide +kernel

theorem test_encode_words :
    encode (.pdiv 3 4 1 2) = 0x23312400#32 ∧ encode (.gpow 2 1 8) = 0x14210008#32 ∧
    encode (.rsgen 2 5) = 0x30200005#32 ∧ encode (.roots 1) = 0x32010000#32 := by decide +kernel

/-- 30_encoding.md R101, R102. -/
theorem test_assemble :
    assembleLine "PDIV P3, P4, P1, P2 ; quotient, remainder".toList = some (some (.pdiv 3 4 1 2)) ∧
    assembleLine "ginv S1, S2".toList = some (some (.gpow 1 2 254)) ∧
    assembleLine "RSGEN P2, #65536".toList = none ∧
    assembleLine "SYND P3, P1, #0x6".toList = some (some (.synd 3 1 6)) := by decide +kernel

/-! ## Field functions and tables (95_test_vectors.md §2, §3.1) -/

theorem test_slowmul : slowmul 0x53 0xCA = 0x8F ∧ slowmul 0x80 0x80 = 0x13 ∧ slowmul 0xFF 0xFF = 0xE2 := by decide +kernel
theorem test_tables :
    builtTables.logAt 0x53 = 206 ∧ builtTables.logAt 1 = 0 ∧ builtTables.logAt 0 = 0 ∧ builtTables.logAt 0xFF = 175 ∧
    builtTables.alogAt 24 = 0x8F ∧ builtTables.alogAt 254 = 142 ∧ builtTables.alogAt 255 = 1 := by decide +kernel

/-! ## Commands (95_test_vectors.md §3.3, §4.1, §4.2) -/

theorem test_nop : ran (withS 1 2) 0x00000000 (fun s => (s.statusWord, s.lastcmd)) = some (0x6, 0) := by decide +kernel
theorem test_gadd : ran (withS 0x53 0xCA) 0x10012000 (fun s => (s.sregs[0], s.statusWord)) = some (0x99, 0x6) := by
  decide +kernel
theorem test_gclr : ran (withS 0x77 0) 0x10111000 (fun s => (s.sregs[1], s.statusWord)) = some (0, 0x16) := by
  decide +kernel
theorem test_gmul : ran (withS 0x53 0xCA) 0x11312000 (fun s => (s.sregs[3], s.statusWord)) = some (0x8F, 0x6) := by
  decide +kernel
theorem test_gmul_in_place : ran (withS 0x80 0) 0x11111000 (fun s => s.sregs[1]) = some 0x13 := by decide +kernel
theorem test_gmulr : ran (withS 0xFF 0xFF) 0x12412000 (fun s => s.sregs[4]) = some 0xE2 := by decide +kernel
theorem test_gdiv : ran (withS 0x99 0x53) 0x13012000 (fun s => s.sregs[0]) = some 0xED := by decide +kernel
theorem test_gdiv_zero :
    ran ((withS 0 0).setSreg 0 0x44) 0x13012000 (fun s => (s.sregs[0], s.statusWord, s.errinfo)) =
      some (0x44, 0x20E, 0x13012000) := by decide +kernel
theorem test_gpow_inverse : ran (withS 0 0x53) 0x141200FE (fun s => s.sregs[1]) = some 0x8C := by decide +kernel
theorem test_gpow_zero_zero : ran (withS 0 0) 0x14210000 (fun s => (s.sregs[2], s.statusWord)) = some (0, 0x16) := by
  decide +kernel
theorem test_ptrim :
    ran (withP [5, 0, 7, 0, 0] []) 0x20210000 (fun s => (s.poly 2, (s.pregs[2]).len)) = some ([5, 0, 7], 3) := by
  decide +kernel
theorem test_padd : ran (withP [1, 2, 3] [1, 2]) 0x21012000 (fun s => (s.pregs[0]).len) = some 3 := by decide +kernel
theorem test_padd_cancels : ran (withP [1, 2, 3] [1, 2, 3]) 0x21012000 (fun s => (s.poly 0, s.statusWord)) = some ([], 0x16) := by
  decide +kernel
theorem test_pmul : ran (withP [2, 1] [4, 1]) 0x22312000 (fun s => s.poly 3) = some [8, 6, 1] := by decide +kernel
theorem test_pmul_ecap :
    ran (withP (List.replicate 200 1) (List.replicate 58 1)) 0x22312000 (fun s => (s.poly 3, s.statusWord, s.errinfo)) =
      some ([], 0x40E, 0x22312000) := by decide +kernel
theorem test_pdiv :
    ran (withP [0, 0, 0, 0, 0, 11, 40, 23] gen5) 0x23312400 (fun s => (s.poly 3, s.poly 4)) =
      some ([91, 85, 23], [104, 126, 197, 250, 75]) := by decide +kernel
theorem test_pdiv_in_place :
    ran (withP [1, 2, 3, 4, 5, 6, 7] [3, 0, 1]) 0x23112200 (fun s => (s.poly 1, s.poly 2)) =
      some ([23, 14, 12, 6, 7], [56, 16]) := by decide +kernel
theorem test_pmod : ran (withP [1, 2, 3, 4, 5, 6, 7] [3, 0, 1]) 0x24512000 (fun s => s.poly 5) = some [56, 16] := by
  decide +kernel
theorem test_pmod_epdivz : ran (withP [1, 2, 3] [0, 0, 0]) 0x24512000 (fun s => s.statusWord) = some 0x30E := by
  decide +kernel
theorem test_peval : ran ((withP [1, 0, 23, 0, 90] []).setSreg 1 2) 0x25011000 (fun s => s.sregs[0]) = some 148 := by
  decide +kernel
theorem test_peval_at_zero : ran (withP [1, 0, 23, 0, 90] []) 0x25011000 (fun s => s.sregs[0]) = some 1 := by
  decide +kernel
theorem test_pder : ran (withP gen5 []) 0x26210000 (fun s => s.poly 2) = some [197, 0, 63, 0, 1] := by decide +kernel
theorem test_rsgen : ran ready 0x30200005 (fun s => s.poly 2) = some gen5 := by decide +kernel
theorem test_rsgen_ecap : ran ready 0x30200100 (fun s => (s.poly 2, s.statusWord)) = some ([], 0x40E) := by
  decide +kernel
theorem test_synd : ran (withP code5 []) 0x31310006 (fun s => s.poly 3) = some [0, 0, 0, 0, 0, 130] := by decide +kernel
theorem test_synd_zero : ran (withP code5 []) 0x31310005 (fun s => (s.poly 3, s.statusWord)) = some ([], 0x16) := by
  decide +kernel
theorem test_roots :
    ran (withP [1, 64] []) 0x32010000 (fun s => (s.rootcnt, s.rootmap)) =
      some ((1 : BitVec 9), (1 : BitVec 256) <<< 54) := by decide +kernel
theorem test_roots_none : ran (withP [5] []) 0x32010000 (fun s => (s.rootcnt, s.rootmap, s.statusWord)) = some (0, 0, 0x16) := by
  decide +kernel

/-! ## The bus, resets and the engine (95_test_vectors.md §4.5, §4.6) -/

theorem test_boot_refuses_write :
    after State.reset (wr 0x20 5) (fun s => (s.statusWord, s.errinfo, s.sregs[0])) = some (0x609, 0x20, 0) := by
  decide +kernel
theorem test_read_id : after ready (rd 0) answer = some (some 0x47465045) := by decide +kernel
theorem test_write_s0_out_of_range :
    after ready (wr 0x20 0x100) (fun s => (s.sregs[0], s.statusWord, s.errinfo)) = some (0, 0x50A, 0x20) := by
  decide +kernel
theorem test_write_len_bounds :
    after ready (wr 0x64 256) (fun s => (s.pregs[1]).len) = some 256 ∧
    after ready (wr 0x64 257) (fun s => ((s.pregs[1]).len, s.errinfo)) = some (0, 0x64) := by decide +kernel
theorem test_write_cell :
    after ready (wr 0x1FFC 7) (fun s => ((s.pregs[3]).cells[255], s.poly 3)) = some (7, []) := by decide +kernel
theorem test_read_tables :
    after ready (rd 0x4420) answer = some (some 29) ∧ after ready (rd 0x47FC) answer = some (some 1) ∧
    after ready (rd 0x4008) answer = some (some 1) := by decide +kernel
theorem test_read_misaligned :
    after ready (rd 0x22) (fun s => (answer s, s.statusWord, s.errinfo)) = some (some 0, 0x70A, 0x22) := by
  decide +kernel
theorem test_byte_write_reports_eacc_first :
    after State.reset (.bus (.write (offset 0x22) 1 0x1FF)) (fun s => (s.statusWord, s.errinfo)) = some (0x709, 0x22) := by
  decide +kernel
theorem test_soft_reset_abandons :
    after ((withS 0x77 0).accept 0x11133000) (wr 0x04 1) (fun s => (s.statusWord, s.sregs[1], s.lastcmd, s.irq)) =
      some (0x2, 0, 0, false) := by decide +kernel
theorem test_command_write_accepts :
    after ready (wr 0x0C 0x12312000) (fun s => (s.phase, s.statusWord, s.lastcmd)) =
      some (.exec 0x12312000, 0x3, 0x12312000) := by decide +kernel
theorem test_illegal_word_is_recorded :
    ran ready 0x10812000 (fun s => (s.statusWord, s.lastcmd, s.errinfo)) = some (0x10E, 0x10812000, 0x10812000) := by
  decide +kernel
theorem test_first_step_after_reset_is_the_bootstrap :
    (nextOf (step State.reset)).map (fun s => (s.statusWord, s.phase)) = some (0x2, .idle) := by decide +kernel
theorem test_window_base : windowOffset 0x40000000 0x40000020 = some 0x20 ∧ windowOffset 0x40000000 0x40008000 = none := by
  decide +kernel

/-! ## Witnesses: the hypotheses of each statement are met together by a concrete state and operands -/

/-- A machine that has accepted the word w and whose engine moves next. -/
def running (w : Word) : State := ready.accept w

theorem witness_DecodeOfEncodeIsIdentity : WellFormed (.pdiv 7 0 7 7) := by decide
theorem witness_EncodeOfDecodeIsIdentity : decodeWord 0x31770100 = .ok (.synd 7 7 256) := rfl
theorem witness_IllegalWordsRaiseEill :
    IllegalWord 0xFF000000 ∧ IllegalWord 0x23112100 ∧ (running 0x23112100).phase = .exec 0x23112100 ∧
    ¬ IllegalWord 0x23123400 ∧ decodeWord 0 = .ok .nop := by
  refine ⟨.inl ?_, .inr (by decide), rfl, ?_, rfl⟩
  · simp [opcodeRows]
  · simp [IllegalWord, opcodeRows]
theorem witness_StepRunsDecodedCommand :
    EngineMoves (running 0x10123000) ∧ (running 0x10123000).phase = .exec 0x10123000 ∧
    decodeWord 0x10123000 = .ok (.gadd 1 2 3) := ⟨.inl rfl, rfl, rfl⟩
theorem witness_BootstrapRunsTheLoop : State.reset.phase = .boot := rfl
theorem witness_TableInvariantsHold :
    State.reset.phase = .boot ∧ (0x53 : Byte) ≠ 0 ∧
    step (withTurn ready .engine) = .next ready ∧ Turn.engine ≠ .hardReset ∧ ready.phase ≠ .boot :=
  ⟨rfl, by decide, rfl, by decide, by decide⟩
theorem witness_TableMultiplyIsReferenceMultiply : (0xFF : Byte) ≠ 0 ∧ (1 : Byte) ≠ 0 := by decide
theorem witness_FieldLawsHold : (0xFF : Byte) ≠ 0 := by decide
theorem witness_GaddWritesTheSum : (3 : RegIdx) = 3 := rfl
theorem witness_GmulWritesTheProduct : (withS 1 1).tables = builtTables ∧ (withS 1 1).sregs[1] = 1 ∧ (withS 1 1).sregs[2] = 1 :=
  ⟨rfl, by decide +kernel, by decide +kernel⟩
theorem witness_GmulrWritesTheReferenceProduct : (withS 0xFF 1).tables = builtTables := rfl
theorem witness_GdivWritesTheQuotientOrRaisesEdivz :
    (withS 0 0).sregs[2] = 0 ∧ (withS 0 7).sregs[2] ≠ 0 ∧ (withS 0 7).tables = builtTables ∧ (withS 0 7).sregs[1] = 0 ∧
    (withS 7 7).sregs[2] ≠ 0 ∧ (withS 7 7).tables = builtTables ∧ (withS 7 7).sregs[1] = (withS 7 7).sregs[2] :=
  ⟨by decide +kernel, by decide +kernel, rfl, by decide +kernel, by decide +kernel, rfl, by decide +kernel⟩
theorem witness_GpowWritesThePower :
    (withS 0 0).sregs[1] = 0 ∧ (withS 5 0).tables = builtTables ∧ (withS 5 0).sregs[1] ≠ 0 :=
  ⟨by decide +kernel, rfl, by decide +kernel⟩
theorem witness_PtrimWritesTheTrimmedCopy :
    ((ready.setPreg 1 { len := 1, cells := Vector.replicate 256 0 }).pregs[1]).len = 1 ∧
    ((ready.setPreg 1 { len := 1, cells := Vector.replicate 256 0 }).pregs[1]).cells[0] = 0 := by decide +kernel
theorem witness_PaddWritesTheSum : ((withP [1, 2] []).pregs[2]).value = [] := by decide +kernel
theorem witness_PmulWritesTheProductOrRaisesEcap :
    (0 < ((withP (List.replicate 200 1) (List.replicate 58 1)).pregs[1]).value.length ∧
      0 < ((withP (List.replicate 200 1) (List.replicate 58 1)).pregs[2]).value.length ∧
      256 < ((withP (List.replicate 200 1) (List.replicate 58 1)).pregs[1]).value.length +
        ((withP (List.replicate 200 1) (List.replicate 58 1)).pregs[2]).value.length - 1) ∧
    ¬ (256 < ((withP (List.replicate 200 1) (List.replicate 57 1)).pregs[1]).value.length +
        ((withP (List.replicate 200 1) (List.replicate 57 1)).pregs[2]).value.length - 1) ∧
    (withP [] [1]).tables = builtTables := ⟨by decide +kernel, by decide +kernel, rfl⟩
theorem witness_PdivWritesQuotientAndRemainderOrRaisesEpdivz :
    (3 : RegIdx) ≠ 4 ∧ ((withP [1] [0, 0]).pregs[2]).value = [] ∧ ((withP [1] [1, 2]).pregs[2]).value ≠ [] ∧
    ((withP [1] [1, 2]).pregs[1]).value.length < ((withP [1] [1, 2]).pregs[2]).value.length ∧
    (withP [1] [2]).tables = builtTables ∧ ((withP [1] [2]).pregs[2]).value.length = 1 :=
  ⟨by decide, by decide +kernel, by decide +kernel, by decide +kernel, rfl, by decide +kernel⟩
theorem witness_PmodWritesTheRemainderOrRaisesEpdivz :
    ((withP [1] [0, 0]).pregs[2]).value = [] ∧ ((withP [1] [1, 2]).pregs[2]).value ≠ [] := by decide +kernel
theorem witness_PevalWritesTheValue :
    ((withP [] []).pregs[1]).value = [] ∧ (withP [] []).tables = builtTables ∧ (withP [] []).sregs[1] = 0 :=
  ⟨by decide +kernel, rfl, by decide +kernel⟩
theorem witness_PderWritesTheDerivative :
    ((withP [7] []).pregs[1]).value.length ≤ 1 ∧
    ∀ j, j % 2 = 1 → coeff ((withP [7, 0, 5] []).pregs[1]).value j = 0 := by
  refine ⟨by decide +kernel, ?_⟩
  have h : ((withP [7, 0, 5] []).pregs[1]).value = [7, 0, 5] := by decide +kernel
  rw [h]
  intro j hj
  match j, hj with
  | 1, _ => rfl
  | n + 3, _ => rfl
theorem witness_RsgenWritesTheGeneratorOrRaisesEcap :
    256 < (256 : BitVec 16).toNat + 1 ∧ (255 : BitVec 16).toNat + 1 ≤ 256 ∧ ready.tables = builtTables :=
  ⟨by decide, by decide, rfl⟩
theorem witness_SyndWritesTheSyndromesOrRaisesEcap :
    256 < (257 : BitVec 16).toNat ∧ (256 : BitVec 16).toNat ≤ 256 ∧ (255 : Fin 256).val < (256 : BitVec 16).toNat ∧
    (withP [0, 1] []).tables = builtTables := ⟨by decide, by decide, by decide, rfl⟩
theorem witness_RootsWritesTheRootMap :
    ((withP [] []).pregs[1]).value = [] ∧ (withP [5] []).tables = builtTables ∧
    ((withP [5] []).pregs[1]).value.length = 1 ∧ coeff ((withP [5] []).pregs[1]).value 0 ≠ 0 :=
  ⟨by decide +kernel, rfl, by decide +kernel, by decide +kernel⟩
theorem witness_CommandErrorsArePrecise :
    (running 0xFF000000).phase = .exec 0xFF000000 ∧ decodeWord 0xFF000000 = .error .unknownOpcode ∧
    (running 0x13012000).phase = .exec 0x13012000 ∧ decodeWord 0x13012000 = .ok (.gdiv 0 1 2) ∧
    commandError (running 0x13012000) (.gdiv 0 1 2) = some 0x02 := ⟨rfl, rfl, rfl, rfl, by decide +kernel⟩
theorem witness_FirstErrorIsKept : ready.status.err = false ∧ (ready.raise .eacc 0x18).status.err = true := by
  decide +kernel
theorem witness_ErrorsDoNotStopTheEngine : SameButErrors ready (ready.raise .ebusy 0x20) := rfl
theorem witness_CommandsWriteOnlyTheirDestinations :
    exec (.gadd 1 1 1) ready = .next (ready.finishScalar 1 (gadd (ready.sreg 1) (ready.sreg 1))) ∧
    (2 : Fin 8) ∉ scalarDests (.gadd 1 1 1) ∧ (1 : Fin 8) ∉ polyDests (.gadd 1 1 1) ∧
    writesRoots (.gadd 1 1 1) = false := ⟨rfl, by decide, by decide, rfl⟩
theorem witness_EngineWritesAreCanonical :
    canon [0, 5] = [0, 5] ∧ ([0, 5] : Poly).length ≤ 256 ∧ (1 : Fin 8) ≠ 2 ∧
    commandError ready (.ptrim 2 1) = none ∧ exec (.ptrim 2 1) ready = .next (ready.finishPoly 2 (ready.poly 1)) ∧
    (2 : RegIdx) ∈ polyDests (.ptrim 2 1) := ⟨by decide, by decide, by decide, rfl, rfl, by decide⟩
theorem witness_PolynomialValueIsTrimmed :
    PolyReg.clear.len = ({ len := 0, cells := Vector.replicate 256 7 } : PolyReg).len ∧
    ∀ j : Fin 256, j.val < PolyReg.clear.len.toNat →
      PolyReg.clear.cells[j] = ({ len := 0, cells := Vector.replicate 256 7 } : PolyReg).cells[j] := by
  refine ⟨rfl, fun j hj => ?_⟩
  exact absurd hj (Nat.not_lt_zero _)
theorem witness_ZeroFlagIsWrittenAsRuled :
    commandError ready (.gadd 1 2 3) = none ∧
    exec (.gadd 1 2 3) ready = .next (ready.finishScalar 1 (gadd (ready.sreg 2) (ready.sreg 3))) ∧
    scalarDests (.gadd 1 2 3) = [1] ∧ (polyDests (.pdiv 1 2 3 4)).getLast? = some 2 ∧ writesRoots (.roots 1) = true ∧
    commandError ready (.gdiv 0 1 2) ≠ none ∧
    exec (.gdiv 0 1 2) ready = .next (ready.failCommand .edivz (encode (.gdiv 0 1 2))) ∧
    step (withTurn ready (wr 0x04 6)) = .next (ready.transact (.write (offset 0x04) 4 6)) ∧
    (6 : Word).getLsbD 0 = false :=
  ⟨rfl, rfl, rfl, rfl, rfl, by decide +kernel, rfl, rfl, rfl⟩
theorem witness_PhaseMovesAsRuled :
    step (withTurn ready (wr 0x0C 1)) = .next (ready.transact (.write (offset 0x0C) 4 1)) ∧ ready.phase = .idle ∧
    step (withTurn (running 0) (wr 0x04 1)) = .next ((running 0).transact (.write (offset 0x04) 4 1)) ∧
    (running 0).phase = .exec 0 ∧ (1 : Word).getLsbD 0 = true := ⟨rfl, rfl, rfl, rfl, rfl⟩
theorem witness_EngineAlwaysReturnsToIdle : EngineMoves (running 0x32010000) := .inl rfl
/-- The invariant holds once the bootstrap has run, here with the word 0 as LASTCMD. -/
theorem ready_inv : State.Inv { ready with status := { ready.status with done := true } } := by
  refine ⟨?_, fun _ => rfl, by decide +kernel, by decide +kernel, by decide, fun h => absurd h (by decide), ?_, ?_⟩
  · simp [ready, State.bootstrap]
  · intro w h; simp [ready] at h
  · intro h; simp [ready] at h
theorem witness_StepKeepsInvariant :
    State.Inv { ready with status := { ready.status with done := true } } ∧
    step { ready with status := { ready.status with done := true } } =
      .next { ready with status := { ready.status with done := true } } := ⟨ready_inv, rfl⟩
theorem witness_SoftResetKeepsTablesAndReady :
    (1 : Word).getLsbD 0 = true ∧ State.reset.phase = .boot ∧ (running 0).phase ≠ .boot ∧
    (running 0).status.ready = true := by
  refine ⟨rfl, rfl, ?_, rfl⟩
  simp [running]
theorem witness_CommandWriteIsAcceptedOnlyWhenIdle :
    State.Inv { ready with status := { ready.status with done := true } } ∧ ready.phase = .idle ∧
    State.reset.phase ≠ .idle ∧ IllegalWord 0x23112100 := ⟨ready_inv, rfl, by decide, .inr (by decide)⟩
theorem witness_UnalignedOrNarrowAccessFaults : (1 : Nat) ≠ 4 ∧ (offset 0x7FFF).toNat % 4 ≠ 0 := by decide
theorem witness_ReservedAndReadOnlyOffsetsFault :
    ReservedOffset 0x18 ∧ ReservedOffset 0x1C ∧ ReservedOffset 0x80 ∧ ReservedOffset 0xFFC ∧ ReservedOffset 0x3000 ∧
    ReservedOffset 0x3FFC ∧ ReservedOffset 0x4800 ∧ ReservedOffset 0x7FFC ∧ ReadOnlyOffset 0x00 ∧ ReadOnlyOffset 0x10 ∧
    ReadOnlyOffset 0x14 ∧ ReadOnlyOffset 0x40 ∧ ReadOnlyOffset 0x5C ∧ ReadOnlyOffset 0x4000 ∧ ReadOnlyOffset 0x47FC := by
  unfold ReservedOffset ReadOnlyOffset
  omega
theorem witness_BusyAccess :
    State.reset.phase ≠ .idle ∧
    UnspecifiedWhileBusy 0x14 ∧ UnspecifiedWhileBusy 0x20 ∧ UnspecifiedWhileBusy 0x7C ∧
    UnspecifiedWhileBusy 0x1000 ∧ UnspecifiedWhileBusy 0x2FFC ∧ UnspecifiedWhileBusy 0x4000 ∧
    UnspecifiedWhileBusy 0x47FC ∧ RefusedWhileBusy 0x0C ∧ RefusedWhileBusy 0x20 ∧ RefusedWhileBusy 0x3C ∧
    RefusedWhileBusy 0x60 ∧ RefusedWhileBusy 0x7C ∧ RefusedWhileBusy 0x1000 ∧ RefusedWhileBusy 0x2FFC := by
  refine ⟨by decide, ?_⟩
  unfold UnspecifiedWhileBusy RefusedWhileBusy
  omega

theorem witness_ScalarWindow : ready.phase = .idle ∧ 255 < (256 : Word).toNat ∧ (255 : Word).toNat ≤ 255 := by decide
theorem witness_LengthWindow : ready.phase = .idle ∧ 256 < (257 : Word).toNat ∧ (256 : Word).toNat ≤ 256 := by decide
theorem witness_CoefficientWindow : ready.phase = .idle ∧ 255 < (256 : Word).toNat ∧ (255 : Word).toNat ≤ 255 := by decide
theorem witness_TableWindows : ready.phase = .idle := rfl
theorem witness_ResultWindows : ready.phase = .idle ∧ 31 < 32 := by decide
theorem witness_IrqFollowsDoneAndErr :
    ready.phase = .idle ∧ (0xFFFFFFFE : Word).getLsbD 0 = false ∧ (0xFFFFFFFF : Word).getLsbD 0 = true := by decide
theorem witness_PaddAddsCoefficients : canon [1, 2, 3] = [1, 2, 3] ∧ canon [] = [] := by decide
theorem witness_PmulConvolves : canon [2, 1] = [2, 1] ∧ ([2, 1] : Poly) ≠ [] ∧ canon [] = [] := by decide
theorem witness_PevalIsHorner : (2 : Byte) ≠ 0 := by decide
theorem witness_EuclideanDivisionIsExact :
    canon [1, 2, 3] = [1, 2, 3] ∧ canon [2] = [2] ∧ ([2] : Poly) ≠ [] ∧
    pdivmod builtTables [1, 2, 3] [2] = ([142, 1, 143], []) := by decide +kernel
theorem witness_PolynomialRingLaws : canon [1, 2] = [1, 2] ∧ canon [] = [] ∧ canon [0, 7] = [0, 7] := by decide
theorem witness_EvaluationIsHomomorphism : canon [1, 2] = [1, 2] ∧ canon [0, 7] = [0, 7] := by decide
theorem witness_DerivativeLaws : canon [1, 2] = [1, 2] ∧ canon [0, 7] = [0, 7] := by decide
theorem witness_GeneratorRoots : (255 : Nat) ≤ 255 := by decide
theorem witness_SystematicCodewordsHaveZeroSyndromes :
    canon [11, 40, 23] = [11, 40, 23] ∧
    code5 = padd (pmul builtTables [11, 40, 23] (monomial 5 1))
      (pdivmod builtTables (pmul builtTables [11, 40, 23] (monomial 5 1)) (generator builtTables 5)).2 := by
  decide +kernel
theorem witness_SingleErrorIsLocated :
    canon code5 = code5 ∧ (0x55 : Byte) ≠ 0 ∧ 6 ≤ 254 ∧ syndromes builtTables code5 5 = [] ∧ 2 ≤ 5 := by decide +kernel

end Sys2Proof.Tests
end

/-! PROOFS. The statements of 10_state.md: the tables (R28), engine writes (R24), the value of a register (R23), the
engine phase (R37) and the reset values (R39), with the facts about bus writes, commands, the bootstrap loop and
polynomial lengths they rest on. -/

namespace Sys2Proof.Machine

/-! ## All that a bus write can do -/

/-- The offsets of the three writable control registers are the only ones that name them (20_memory.md R61). -/
theorem targetOf_control (a : Offset) :
    (targetOf a = .ctrl → a = offset 0x04) ∧ (targetOf a = .status → a = offset 0x08) ∧
    (targetOf a = .cmd → a = offset 0x0C) := by
  have eq_offset (n : Nat) (hn : n < 0x8000) (e : a.toNat = n) : a = offset n :=
    BitVec.eq_of_toNat_eq (e.trans (offset_toNat n hn).symm)
  unfold targetOf
  by_cases hlow : a.toNat < 0x20
  · refine ⟨fun h => eq_offset 4 (by decide) ?_, fun h => eq_offset 8 (by decide) ?_,
      fun h => eq_offset 12 (by decide) ?_⟩ <;> grind
  · iterate 7 rw [if_neg (by omega)]
    refine ⟨?_, ?_, ?_⟩ <;> grind

/-- A good access has the width of a word. -/
theorem width_of_badAccess_false {a : Offset} {width : Nat} (h : badAccess a width = false) : width = 4 := by
  by_contra hw
  exact Bool.false_ne_true (h.symm.trans (badAccess_true a width (.inl hw)))

/-- The states a write of v at offset a may leave: one constructor per kind of register (20_memory.md R65 to R73). -/
inductive WriteOutcome (s : State) (a : Offset) (width : Nat) (v : Word) : State → Prop
  | fault (e : ErrKind) : WriteOutcome s a width v (busFailed s e.code a none)
  | ctrl : a = offset 0x04 → width = 4 → WriteOutcome s a width v (answered (afterCtrlWrite s v) none)
  | status : a = offset 0x08 → width = 4 → WriteOutcome s a width v (answered (afterStatusWrite s v) none)
  | cmd : a = offset 0x0C → width = 4 → s.phase = .idle → WriteOutcome s a width v (answered (s.accept v) none)
  | sreg (i : RegIdx) : targetOf a = .sreg i → s.phase = .idle → fitsElement v = true →
      WriteOutcome s a width v (answered (s.setSreg i (v.setWidth 8)) none)
  | len (i : RegIdx) : targetOf a = .len i → s.phase = .idle → fitsLength v = true →
      WriteOutcome s a width v (answered (s.setLen i (v.setWidth 9)) none)
  | cell (p : RegIdx) (j : Fin 256) : targetOf a = .cell p j → s.phase = .idle → fitsElement v = true →
      WriteOutcome s a width v (answered (s.setCell p j (v.setWidth 8)) none)

/-- A checked write faults, or is done in IDLE with a value in range. -/
theorem WriteOutcome.of_checked {s : State} {a : Offset} {width : Nat} {v : Word} {ok : Bool} {written : State}
    (h : s.phase = .idle → ok = true → WriteOutcome s a width v (answered written none)) :
    WriteOutcome s a width v (s.writeChecked a ok written) := by
  obtain ⟨-, e⟩ | ⟨-, -, e⟩ | ⟨hb, hok, e⟩ := s.writeChecked_cases a ok written <;> rw [e]
  · exact .fault .ebusy
  · exact .fault .erange
  · exact h (s.not_busy_iff.1 hb) hok

/-- All that a write can do (20_memory.md R62, R65 to R73). -/
theorem State.busWrite_outcome (s : State) (a : Offset) (width : Nat) (v : Word) :
    WriteOutcome s a width v (s.busWrite a width v) := by
  have fault (e : ErrKind) : WriteOutcome s a width v (s.writeFault e a) := s.writeFault_eq e a ▸ .fault e
  obtain ⟨hctrl, hstatus, hcmd⟩ := targetOf_control a
  cases hbad : badAccess a width with
  | true => simpa only [State.busWrite, hbad, if_true] using fault .eacc
  | false =>
    have hw := width_of_badAccess_false hbad
    simp only [State.busWrite, hbad, Bool.false_eq_true, if_false, State.respond_ok, State.writeCtrl_eq,
      State.writeStatus_eq]
    cases ht : targetOf a with
    | ctrl => exact .ctrl (hctrl ht) hw
    | status => exact .status (hstatus ht) hw
    | cmd => exact .of_checked fun hi _ => .cmd (hcmd ht) hw hi
    | sreg i => exact .of_checked fun hi hv => .sreg i ht hi hv
    | len i => exact .of_checked fun hi hv => .len i ht hi hv
    | cell p j => exact .of_checked fun hi hv => .cell p j ht hi hv
    | id => exact fault .eacc
    | errinfo => exact fault .eacc
    | rootcnt => exact fault .eacc
    | rootmap k => exact fault .eacc
    | log v => exact fault .eacc
    | alog i => exact fault .eacc
    | reserved => exact fault .eacc

/-- A read changes neither the phase nor a table. -/
theorem State.busRead_frame (s : State) (a : Offset) (width : Nat) :
    (s.busRead a width).phase = s.phase ∧ (s.busRead a width).tables = s.tables := by
  obtain e | ⟨-, -, e⟩ | e := s.busRead_cases a width <;> rw [e] <;> exact ⟨rfl, rfl⟩

/-- A CTRL write changes no table: a soft reset keeps them (70_reset_and_hazards.md R262). -/
@[simp] theorem afterCtrlWrite_tables (s : State) (v : Word) : (afterCtrlWrite s v).tables = s.tables := by
  unfold afterCtrlWrite
  split <;> rfl

/-- The phase after a CTRL write: only a soft reset of a running command moves it (70_reset_and_hazards.md R262). -/
theorem afterCtrlWrite_phase (s : State) (v : Word) :
    (afterCtrlWrite s v).phase = if v.getLsbD 0 = true ∧ s.phase ≠ .boot then .idle else s.phase := by
  unfold afterCtrlWrite
  cases v.getLsbD 0 with
  | false => simp
  | true => by_cases hb : s.phase = .boot <;> simp [afterSoftReset, hb]

/-- No write changes a table (10_state.md R28). -/
theorem WriteOutcome.tables {s t : State} {a : Offset} {width : Nat} {v : Word} (h : WriteOutcome s a width v t) :
    t.tables = s.tables := by
  cases h with
  | fault e => rfl
  | ctrl ha hw => exact afterCtrlWrite_tables s v
  | status ha hw => rfl
  | cmd ha hw hi => rfl
  | sreg i ht hi hv => rfl
  | len i ht hi hv => rfl
  | cell p j ht hi hv => rfl

/-- What a write does to the phase: an accepted command starts, a soft reset abandons one, and nothing else moves it
(10_state.md R37). -/
theorem WriteOutcome.phase {s t : State} {a : Offset} {width : Nat} {v : Word} (h : WriteOutcome s a width v t) :
    (a = offset 0x0C ∧ width = 4 ∧ s.phase = .idle ∧ t.phase = .exec v) ∨
    (a = offset 0x04 ∧ width = 4 ∧ v.getLsbD 0 = true ∧ (∃ w, s.phase = .exec w) ∧ t.phase = .idle) ∨
    t.phase = s.phase := by
  cases h with
  | fault e => exact .inr (.inr rfl)
  | ctrl ha hw =>
    have hp : (answered (afterCtrlWrite s v) none).phase = _ := afterCtrlWrite_phase s v
    rw [hp]
    cases hs : s.phase with
    | boot => simp
    | idle => simp
    | exec w => cases hv : v.getLsbD 0 <;> simp [ha, hw]
  | status ha hw => exact .inr (.inr rfl)
  | cmd ha hw hi => exact .inl ⟨ha, hw, hi, rfl⟩
  | sreg i ht hi hv => exact .inr (.inr rfl)
  | len i ht hi hv => exact .inr (.inr rfl)
  | cell p j ht hi hv => exact .inr (.inr rfl)

/-- No transaction changes a table (10_state.md R28). -/
theorem State.transact_tables (s : State) (x : Txn) : (s.transact x).tables = s.tables := by
  cases x with
  | read a width => exact (s.busRead_frame a width).2
  | write a width v => exact (s.busWrite_outcome a width v).tables

/-- What a transaction does to the phase (10_state.md R37). -/
theorem State.transact_phase (s : State) (x : Txn) :
    (∃ w, x = .write (offset 0x0C) 4 w ∧ s.phase = .idle ∧ (s.transact x).phase = .exec w) ∨
    (∃ v : Word, x = .write (offset 0x04) 4 v ∧ v.getLsbD 0 = true ∧ (∃ w, s.phase = .exec w) ∧
      (s.transact x).phase = .idle) ∨
    (s.transact x).phase = s.phase := by
  cases x with
  | read a width => exact .inr (.inr (s.busRead_frame a width).1)
  | write a width v =>
    obtain ⟨rfl, rfl, h⟩ | ⟨rfl, rfl, h⟩ | h := (s.busWrite_outcome a width v).phase
    · exact .inl ⟨v, rfl, h⟩
    · exact .inr (.inl ⟨v, rfl, h⟩)
    · exact .inr (.inr h)

/-! ## All that a command and an engine turn can do -/

/-- A command fails with its error or completes without one. -/
theorem exec_cases {i : Instr} {s t : State} (h : exec i s = .next t) :
    (∃ code, commandError s i = some code ∧ t = commandFailed s code (encode i)) ∨
    (commandError s i = none ∧ Completed s t) := by
  cases he : commandError s i with
  | some code =>
    cases h.symm.trans (exec_of_commandError i s code he)
    exact .inl ⟨code, rfl, rfl⟩
  | none =>
    obtain ⟨u, hu, hc⟩ := exec_of_noError i s he
    cases h.symm.trans hu
    exact .inr ⟨rfl, hc⟩

/-- An accepted word, legal or not, completes in IDLE and changes no table (30_encoding.md R106, R107). -/
theorem State.runCommand_frame {s t : State} {w : Word} (h : s.runCommand w = .next t) :
    t.phase = .idle ∧ t.tables = s.tables := by
  obtain ⟨i, -, e⟩ | ⟨-, -, e⟩ := s.runCommand_cases w
  · obtain ⟨code, -, rfl⟩ | ⟨-, hc⟩ := exec_cases (e ▸ h)
    · exact ⟨rfl, rfl⟩
    · exact ⟨hc.phase, hc.tables⟩
  · cases e.symm.trans h
    exact ⟨rfl, rfl⟩

/-- Every engine turn ends in IDLE (10_state.md R37). -/
theorem State.engineTurn_phase {s t : State} (h : s.engineTurn = .next t) : t.phase = .idle := by
  obtain ⟨-, e⟩ | ⟨hp, e⟩ | ⟨w, -, e⟩ := s.engineTurn_cases
  · cases e.symm.trans h
    rfl
  · cases e.symm.trans h
    exact hp
  · exact (State.runCommand_frame (e ▸ h)).1

/-- No engine turn but the bootstrap changes a table (10_state.md R28). -/
theorem State.engineTurn_tables {s t : State} (h : s.engineTurn = .next t) (hb : s.phase ≠ .boot) :
    t.tables = s.tables := by
  obtain ⟨hp, -⟩ | ⟨-, e⟩ | ⟨w, -, e⟩ := s.engineTurn_cases
  · exact absurd hp hb
  · cases e.symm.trans h
    rfl
  · exact (State.runCommand_frame (e ▸ h)).2

/-- The engine's turn in BOOT is the bootstrap (70_reset_and_hazards.md R261). -/
theorem step_boot (s : State) (h : s.phase = .boot) : step (withTurn s .engine) = .next s.bootstrap := by
  rw [step_engine, State.engineTurn, h]

/-! ## The tables of the bootstrap (10_state.md R26 to R28) -/

/-- An entry of the built LOG: what iterations 0..254 leave there (70_reset_and_hazards.md R261). -/
theorem builtTables_log_getElem (v : Nat) (hv : v < 256) :
    builtTables.log[v] = BitVec.ofNat 8 (bootLogEntry (BitVec.ofNat 8 v) (bootSequence.take 255) 0 0) := by
  simp only [builtTables, tabulate_getElem, Config.order]

/-- An entry of the built ALOG: the element of its iteration. -/
theorem builtTables_alog_getElem (k : Nat) (hk : k < 256) : builtTables.alog[k] = bootSequence.getD k 0 := by
  simp only [builtTables, tabulate_getElem]

/-- LOG[0] is 0 (10_state.md R26). -/
theorem builtTables_log_zero : builtTables.log[0] = 0 := by
  rw [builtTables_eq_listed]
  decide +kernel

/-- The 255 iterations run through every nonzero element (10_state.md R28). -/
theorem mem_bootSequence : ∀ v : Byte, v ≠ 0 → v ∈ bootSequence.take 255 := by
  rw [bootSequence_eq_listed]
  decide +kernel

/-- No iteration has the element 0. -/
theorem zero_notMem_bootSequence : 0 ∉ bootSequence.take 255 := by
  rw [bootSequence_eq_listed]
  decide +kernel

/-- LOG inverts ALOG on 0..254. -/
theorem builtTables_log_alog : ∀ i : Nat, i ≤ 254 → builtTables.logAt (builtTables.alogAt i) = i := by
  rw [builtTables_eq_listed]
  decide +kernel

/-- The antilogs of 0..254 are the elements of the iterations. -/
theorem mem_bootSequence_iff_alog (v : Byte) :
    v ∈ bootSequence.take 255 ↔ ∃ i : Nat, i ≤ 254 ∧ builtTables.alogAt i = v := by
  have hlen : bootSequence.length = 256 := by rw [bootSequence_eq_listed]; decide +kernel
  have halog (i : Nat) (hi : i < 256) : builtTables.alogAt i = bootSequence[i]'(hlen ▸ hi) := by
    simp [Tables.alogAt, builtTables_alog_getElem, hi, hlen]
  rw [List.mem_iff_getElem]
  constructor
  · rintro ⟨i, hi, rfl⟩
    rw [List.length_take] at hi
    exact ⟨i, by omega, (halog i (by omega)).trans List.getElem_take.symm⟩
  · rintro ⟨i, hi, rfl⟩
    exact ⟨i, by rw [List.length_take]; omega, List.getElem_take.trans (halog i (by omega)).symm⟩

/-- ALOG[0..254] takes exactly the nonzero values. -/
theorem ne_zero_iff_builtTables_alog (v : Byte) : v ≠ 0 ↔ ∃ i : Nat, i ≤ 254 ∧ builtTables.alogAt i = v := by
  rw [← mem_bootSequence_iff_alog]
  exact ⟨mem_bootSequence v, fun hv h0 => zero_notMem_bootSequence (h0 ▸ hv)⟩

/-- ALOG inverts LOG on the nonzero elements: each is an antilog, whose log is its index. -/
theorem builtTables_alog_log (v : Byte) (hv : v ≠ 0) : builtTables.alogAt (builtTables.logAt v) = v := by
  obtain ⟨i, hi, rfl⟩ := (ne_zero_iff_builtTables_alog v).1 hv
  rw [builtTables_log_alog i hi]

/-! ## The bootstrap loop over tables of any content (70_reset_and_hazards.md R261) -/

/-- The element the loop ends with. -/
theorem bootstrapLoop_element (n i : Nat) (a : Byte) (t : Tables) :
    (bootstrapLoop n i a t).1 = (bootElements n a).getD n 0 := by
  induction n generalizing i a t with
  | zero => rfl
  | succ n ih => exact ih _ _ _

/-- ALOG after the loop: the elements of its iterations at their numbers, the other entries as they were. -/
theorem bootstrapLoop_alog (n i : Nat) (a : Byte) (t : Tables) (k : Nat) (hk : k < 256) :
    (bootstrapLoop n i a t).2.alog[k] =
      if i ≤ k ∧ k < i + n then (bootElements n a).getD (k - i) 0 else t.alog[k] := by
  induction n generalizing i a t with
  | zero => rw [if_neg (by omega)]; rfl
  | succ n ih =>
    rw [bootstrapLoop, ih]
    obtain hlt | rfl | hlt := Nat.lt_trichotomy k i
    · rw [if_neg (by omega), if_neg (by omega), Vector.getElem_setIfInBounds_ne _ (by omega)]
    · rw [if_neg (by omega), if_pos (by omega), Vector.getElem_setIfInBounds_self, Nat.sub_self]
      rfl
    · obtain ⟨m, rfl⟩ : ∃ m, k = i + 1 + m := ⟨k - (i + 1), by omega⟩
      rw [show i + 1 + m - (i + 1) = m by omega, show i + 1 + m - i = m + 1 by omega,
        Vector.getElem_setIfInBounds_ne _ (by omega)]
      exact if_congr (by omega) rfl rfl

/-- LOG after the loop: each entry holds what the writes of its iterations leave in it. -/
theorem bootstrapLoop_log (n i : Nat) (a : Byte) (t : Tables) (v : Nat) (hv : v < 256) (l : Nat)
    (hl : t.log[v] = BitVec.ofNat 8 l) :
    (bootstrapLoop n i a t).2.log[v] =
      BitVec.ofNat 8 (bootLogEntry (BitVec.ofNat 8 v) ((bootElements n a).take n) i l) := by
  induction n generalizing i a t l with
  | zero => exact hl
  | succ n ih =>
    rw [bootstrapLoop]
    refine ih _ _ _ _ ?_
    by_cases ha : a = BitVec.ofNat 8 v
    · have hav : a.toNat = v := by rw [ha]; simpa using hv
      simp [ha, hv, Nat.mod_eq_of_lt]
    · have hav : a.toNat ≠ v := fun e => ha (by rw [← e, BitVec.ofNat_toNat, BitVec.setWidth_eq])
      rw [if_neg ha, Vector.getElem_setIfInBounds_ne _ hav, hl]

/-- An entry some iteration writes does not depend on its earlier content. -/
theorem bootLogEntry_of_mem {v : Byte} {as : List Byte} (h : v ∈ as) (i l l' : Nat) :
    bootLogEntry v as i l = bootLogEntry v as i l' := by
  induction as generalizing i l l' with
  | nil => cases h
  | cons a as ih =>
    by_cases ha : a = v
    · simp only [bootLogEntry, ha, if_true]
    · exact ih ((List.mem_cons.1 h).resolve_left (Ne.symm ha)) _ _ _

/-- The loop leaves the built tables, whatever the tables held before: every entry is written. -/
theorem bootstrapTables_eq_builtTables (t : Tables) : bootstrapTables t = builtTables := by
  have hlog (v : Nat) (hv : v < 256) : (bootstrapTables t).log[v] = builtTables.log[v] := by
    by_cases h0 : v = 0
    · subst h0
      rw [builtTables_log_zero]
      exact Vector.getElem_setIfInBounds_self _
    · have hv0 : BitVec.ofNat 8 v ≠ 0 := fun e => h0 (by simpa [Nat.mod_eq_of_lt hv] using congrArg BitVec.toNat e)
      calc (bootstrapTables t).log[v]
          = (bootstrapLoop 255 0 1 t).2.log[v] := Vector.getElem_setIfInBounds_ne _ (Ne.symm h0)
        _ = BitVec.ofNat 8 (bootLogEntry (BitVec.ofNat 8 v) (bootSequence.take 255) 0 (t.log[v]).toNat) :=
          bootstrapLoop_log 255 0 1 t v hv _ (by simp)
        _ = BitVec.ofNat 8 (bootLogEntry (BitVec.ofNat 8 v) (bootSequence.take 255) 0 0) :=
          congrArg _ (bootLogEntry_of_mem (mem_bootSequence _ hv0) _ _ _)
        _ = builtTables.log[v] := (builtTables_log_getElem v hv).symm
  have halog (k : Nat) (hk : k < 256) : (bootstrapTables t).alog[k] = builtTables.alog[k] := by
    rw [builtTables_alog_getElem k hk]
    by_cases h255 : k = 255
    · subst h255
      exact (Vector.getElem_setIfInBounds_self _).trans (bootstrapLoop_element 255 0 1 t)
    · calc (bootstrapTables t).alog[k]
          = (bootstrapLoop 255 0 1 t).2.alog[k] := Vector.getElem_setIfInBounds_ne _ (Ne.symm h255)
        _ = bootSequence.getD k 0 := by
          rw [bootstrapLoop_alog, if_pos (by omega), Nat.sub_zero, bootSequence, Config.order]
  exact congrArg₂ Tables.mk (Vector.ext hlog) (Vector.ext halog)

/-! ## Polynomials that a register can hold (10_state.md R22 to R24) -/

/-- p is canonical and fits a polynomial register. -/
def Storable (p : Poly) : Prop := canon p = p ∧ p.length ≤ 256

/-- A trimmed list that fits is storable. -/
theorem storable_canon {l : Poly} (h : l.length ≤ 256) : Storable (canon l) :=
  ⟨canon_canon l, (canon_length_le l).trans h⟩

/-- The value of a register is storable. -/
theorem storable_poly (s : State) (i : RegIdx) : Storable (s.poly i) := PolyReg.value_canonical _

/-- The elementwise sum is as long as the longer operand. -/
@[simp] theorem sumRaw_length (a b : Poly) : (sumRaw a b).length = max a.length b.length := by
  induction a generalizing b with
  | nil => simp [sumRaw]
  | cons x xs ih =>
    cases b with
    | nil => simp [sumRaw]
    | cons y ys => simp [sumRaw, ih, Nat.succ_max_succ]

/-- The convolution has at most |a| + |b| - 1 coefficients (42_polynomial.md R152). -/
theorem convolve_length_le (t : Tables) (a b : Poly) (hb : 0 < b.length) :
    (convolve t a b).length ≤ a.length + b.length - 1 := by
  induction a with
  | nil => exact Nat.zero_le _
  | cons x xs ih =>
    simp only [convolve, sumRaw_length, List.length_map, List.length_cons]
    omega

/-- So has the product. -/
theorem pmul_length_le (t : Tables) (a b : Poly) : (pmul t a b).length ≤ a.length + b.length - 1 := by
  unfold pmul
  split
  · exact Nat.zero_le _
  · exact (canon_length_le _).trans (convolve_length_le t a b (by omega))

/-- A product is canonical. -/
@[simp] theorem canon_pmul (t : Tables) (a b : Poly) : canon (pmul t a b) = pmul t a b := by
  unfold pmul
  split
  · exact canon_nil
  · exact canon_canon _

/-- A product that fits is storable. -/
theorem storable_pmul {t : Tables} {a b : Poly} (h : a.length + b.length - 1 ≤ 256) : Storable (pmul t a b) :=
  ⟨canon_pmul t a b, (pmul_length_le t a b).trans h⟩

/-- The sum of two polynomials that fit is storable. -/
theorem storable_padd {a b : Poly} (ha : a.length ≤ 256) (hb : b.length ≤ 256) : Storable (padd a b) :=
  storable_canon (by rw [sumRaw_length]; exact max_le ha hb)

/-- The passes of Euclidean division keep quotient and remainder storable: a pass adds a monomial no longer than the
remainder, and subtracts a product no longer than it. -/
theorem storable_pdivLoop (t : Tables) (b : Poly) (c : Byte) (hb : 0 < b.length) (fuel : Nat) (q r : Poly)
    (hq : Storable q) (hr : Storable r) :
    Storable (pdivLoop t b c fuel q r).1 ∧ Storable (pdivLoop t b c fuel q r).2 := by
  induction fuel generalizing q r with
  | zero => exact ⟨hq, hr⟩
  | succ fuel ih =>
    unfold pdivLoop
    split
    · obtain ⟨-, hr⟩ := hr
      have hs : (monomial (r.length - b.length) (gdiv t (leading r) c)).length = r.length - b.length + 1 := by
        simp [monomial]
      refine ih _ _ (storable_padd hq.2 (by omega)) (storable_padd hr ((pmul_length_le _ _ _).trans ?_))
      omega
    · exact ⟨hq, hr⟩

/-- Quotient and remainder of a storable polynomial by a nonzero one are storable (42_polynomial.md R155). -/
theorem storable_pdivmod (t : Tables) {a b : Poly} (ha : Storable a) (hb : 0 < b.length) :
    Storable (pdivmod t a b).1 ∧ Storable (pdivmod t a b).2 :=
  storable_pdivLoop t b _ hb _ _ _ ⟨canon_nil, Nat.zero_le _⟩ ha

/-- The derivative of a polynomial that fits is storable. -/
theorem storable_pder {a : Poly} (ha : a.length ≤ 256) : Storable (pder a) :=
  storable_canon (by rw [List.length_map, List.length_range]; omega)

/-- At most 256 syndromes are storable. -/
theorem storable_syndromes (t : Tables) (p : Poly) {n : Nat} (hn : n ≤ 256) : Storable (syndromes t p n) :=
  storable_canon (by rw [List.length_map, List.length_range]; exact hn)

/-- The generator polynomial has at most n + 1 coefficients (43_rs_derivations.md R190). -/
theorem generator_length_le (t : Tables) (n : Nat) : (generator t n).length ≤ n + 1 := by
  induction n with
  | zero => exact Nat.le_refl _
  | succ n ih =>
    refine (pmul_length_le _ _ _).trans ?_
    simp only [List.length_cons, List.length_nil]
    omega

/-- A generator polynomial of degree at most 255 is storable. -/
theorem storable_generator (t : Tables) {n : Nat} (hn : n ≤ 255) : Storable (generator t n) := by
  refine ⟨?_, (generator_length_le t n).trans (by omega)⟩
  cases n with
  | zero => rfl
  | succ n => exact canon_pmul _ _ _

/-! ## Polynomial commands without error -/

/-- PMUL that fits writes the product. -/
theorem exec_pmul_of_noError {d a b : RegIdx} {s : State} (h : commandError s (.pmul d a b) = none) :
    ¬ productTooLong (s.poly a) (s.poly b) = true ∧
    exec (.pmul d a b) s = .next (s.finishPoly d (pmul s.tables (s.poly a) (s.poly b))) := by
  simp only [commandError, ite_eq_right_iff, reduceCtorEq, imp_false] at h
  have hfit : ¬ productTooLong (s.poly a) (s.poly b) = true := fun e => h ((productTooLong_iff _ _).1 e)
  exact ⟨hfit, if_neg hfit⟩

/-- PDIV by a nonzero polynomial writes quotient and remainder. -/
theorem exec_pdiv_of_noError {q r a b : RegIdx} {s : State} (h : commandError s (.pdiv q r a b) = none) :
    0 < (s.poly b).length ∧
    exec (.pdiv q r a b) s = .next ((s.setPoly q (pdivmod s.tables (s.poly a) (s.poly b)).1).finishPoly r
      (pdivmod s.tables (s.poly a) (s.poly b)).2) := by
  simp only [commandError, ite_eq_right_iff, reduceCtorEq, imp_false] at h
  have hb : 0 < (s.poly b).length := List.length_pos_iff.2 h
  exact ⟨hb, if_neg hb.ne'⟩

/-- PMOD by a nonzero polynomial writes the remainder. -/
theorem exec_pmod_of_noError {d a b : RegIdx} {s : State} (h : commandError s (.pmod d a b) = none) :
    0 < (s.poly b).length ∧
    exec (.pmod d a b) s = .next (s.finishPoly d (pdivmod s.tables (s.poly a) (s.poly b)).2) := by
  simp only [commandError, ite_eq_right_iff, reduceCtorEq, imp_false] at h
  have hb : 0 < (s.poly b).length := List.length_pos_iff.2 h
  exact ⟨hb, if_neg hb.ne'⟩

/-- RSGEN up to 255 writes the generator polynomial. -/
theorem exec_rsgen_of_noError {d : RegIdx} {n : BitVec 16} {s : State} (h : commandError s (.rsgen d n) = none) :
    n.toNat ≤ 255 ∧
    exec (.rsgen d n) s = .next (((s.setPoly d (generator s.tables n.toNat)).setZero false).complete) := by
  simp only [commandError, ite_eq_right_iff, reduceCtorEq, imp_false, not_lt] at h
  exact ⟨h, if_neg (Nat.not_lt.2 (Nat.succ_le_succ h))⟩

/-- SYND up to 256 writes the syndromes. -/
theorem exec_synd_of_noError {d a : RegIdx} {n : BitVec 16} {s : State} (h : commandError s (.synd d a n) = none) :
    n.toNat ≤ 256 ∧
    exec (.synd d a n) s = .next (s.finishPoly d (syndromes s.tables (s.poly a) n.toNat)) := by
  simp only [commandError, ite_eq_right_iff, reduceCtorEq, imp_false, not_lt] at h
  exact ⟨h, if_neg (Nat.not_lt.2 h)⟩

/-! ## Engine writes -/

/-- Register r holds an engine write of a storable polynomial. -/
def HoldsStorable (t : State) (r : RegIdx) : Prop := ∃ p, Storable p ∧ t.pregs[r] = PolyReg.ofPoly p

/-- An engine write of a storable polynomial leaves its register holding one. -/
theorem holdsStorable_setPoly {s t : State} {d r : RegIdx} {p : Poly} (hp : Storable p) (hr : r ∈ [d])
    (ht : t.pregs = (s.setPoly d p).pregs) : HoldsStorable t r := by
  obtain rfl := List.mem_singleton.1 hr
  refine ⟨p, hp, ?_⟩
  rw [ht]
  exact (s.preg_setPreg r r _).trans (if_pos rfl)

/-- A command that ends with one polynomial result leaves its register holding it. -/
theorem holdsStorable_finishPoly {s t : State} {d r : RegIdx} {p : Poly} (hp : Storable p) (hr : r ∈ [d])
    (he : (.next (s.finishPoly d p) : Host.Outcome State Fault Refusal) = .next t) : HoldsStorable t r :=
  holdsStorable_setPoly hp hr (by cases he; rfl)

/-- PDIV's two results: the remainder, and the quotient where its register is another one. -/
theorem holdsStorable_quotRem {s : State} {q r d : RegIdx} {pq pr : Poly} (hq : Storable pq) (hr : Storable pr)
    (hd : d ∈ [q, r]) : HoldsStorable ((s.setPoly q pq).finishPoly r pr) d := by
  have hset : ((s.setPoly q pq).finishPoly r pr).pregs[d] = if r = d then PolyReg.ofPoly pr else
      (s.setPoly q pq).pregs[d] := State.preg_setPreg _ r d _
  by_cases hrd : r = d
  · exact ⟨pr, hr, hset.trans (if_pos hrd)⟩
  · have hqd : d ∈ [q] := by simpa [Ne.symm hrd] using hd
    obtain ⟨p, hp, e⟩ := holdsStorable_setPoly hq hqd (rfl : (s.setPoly q pq).pregs = _)
    exact ⟨p, hp, (hset.trans (if_neg hrd)).trans e⟩

/-- Every polynomial register a command without error writes holds a canonical polynomial (10_state.md R24). -/
theorem exec_holdsStorable {i : Instr} {s t : State} {d : RegIdx} (hok : commandError s i = none)
    (he : exec i s = .next t) (hd : d ∈ polyDests i) : HoldsStorable t d := by
  cases i with
  | ptrim d' a => exact holdsStorable_finishPoly (storable_poly s a) hd he
  | padd d' a b => exact holdsStorable_finishPoly (storable_padd (storable_poly s a).2 (storable_poly s b).2) hd he
  | pmul d' a b =>
    obtain ⟨hfit, e⟩ := exec_pmul_of_noError hok
    rw [productTooLong_iff] at hfit
    have ha := (storable_poly s a).2
    have hb := (storable_poly s b).2
    exact holdsStorable_finishPoly (storable_pmul (by omega)) hd (e.symm.trans he)
  | pdiv q r a b =>
    obtain ⟨hb, e⟩ := exec_pdiv_of_noError hok
    obtain ⟨hq, hr⟩ := storable_pdivmod s.tables (storable_poly s a) hb
    cases e.symm.trans he
    exact holdsStorable_quotRem hq hr hd
  | pmod d' a b =>
    obtain ⟨hb, e⟩ := exec_pmod_of_noError hok
    exact holdsStorable_finishPoly (storable_pdivmod s.tables (storable_poly s a) hb).2 hd (e.symm.trans he)
  | pder d' a => exact holdsStorable_finishPoly (storable_pder (storable_poly s a).2) hd he
  | rsgen d' n =>
    obtain ⟨hn, e⟩ := exec_rsgen_of_noError hok
    cases e.symm.trans he
    exact holdsStorable_setPoly (storable_generator s.tables hn) hd rfl
  | synd d' a n =>
    obtain ⟨hn, e⟩ := exec_synd_of_noError hok
    exact holdsStorable_finishPoly (storable_syndromes s.tables (s.poly a) hn) hd (e.symm.trans he)
  | nop => cases hd
  | gadd d' a b => cases hd
  | gmul d' a b => cases hd
  | gmulr d' a b => cases hd
  | gdiv d' a b => cases hd
  | gpow d' a n => cases hd
  | peval d' a b => cases hd
  | roots a => cases hd

/-- Reading a coefficient: the element below |p|, 0 from there up (00_scope.md R10). -/
theorem coeff_eq_dite (p : Poly) (j : Nat) : coeff p j = if h : j < p.length then p[j] else 0 := by
  unfold coeff
  split
  · exact List.getD_eq_getElem _ _ ‹_›
  · exact List.getD_eq_default _ _ (Nat.not_lt.1 ‹_›)

/-! ## The value of a register -/

/-- Trimming drops trailing zeros only. -/
theorem eq_canon_append_zeros (l : Poly) : ∃ k, l = canon l ++ List.replicate k 0 := by
  refine ⟨(l.rtakeWhile (· == 0)).length, ?_⟩
  have hzero : l.rtakeWhile (· == 0) = List.replicate (l.rtakeWhile (· == 0)).length 0 :=
    List.eq_replicate_of_mem fun x hx => by simpa using List.mem_rtakeWhile_imp hx
  rw [← hzero]
  exact List.rdropWhile_append_rtakeWhile.symm

/-- Trimming leaves no trailing zero. -/
theorem canon_getLast?_ne_zero (l : Poly) : ∀ x ∈ (canon l).getLast?, x ≠ 0 := by
  intro x hx
  obtain ⟨hne, rfl⟩ := List.mem_getLast?_eq_getLast hx
  exact fun h0 => List.rdropWhile_last_not (· == 0) l hne (beq_iff_eq.2 h0)

/-- The value depends on LEN and the cells below it only (10_state.md R23). -/
theorem PolyReg.value_congr {r r' : PolyReg} (hlen : r.len = r'.len)
    (hcells : ∀ j : Fin 256, j.val < r.len.toNat → r.cells[j] = r'.cells[j]) : r.value = r'.value := by
  unfold PolyReg.value
  rw [← hlen]
  congr 1
  apply List.ext_getElem
  · simp
  · intro j hj _
    rw [List.length_take, Vector.length_toList, lt_min_iff] at hj
    simpa using hcells ⟨j, hj.2⟩ hj.1

/-! ## The reset values (10_state.md R39) -/

/-- Every scalar register is 0 at reset. -/
theorem reset_sreg (i : Fin 8) : State.reset.sregs[i] = 0 := Vector.getElem_replicate _

/-- Every polynomial register is clear at reset. -/
theorem reset_preg (i : Fin 8) : State.reset.pregs[i] = PolyReg.clear := Vector.getElem_replicate _

/-- Every cell of a clear register is 0. -/
theorem clear_cell (j : Fin 256) : PolyReg.clear.cells[j] = 0 := Vector.getElem_replicate _

/-! ## The phase -/

/-- Bit 0 of STATUS is BUSY (10_state.md R34). -/
theorem State.statusWord_busy (s : State) : s.statusWord.getLsbD 0 = s.busy := by
  simp only [State.statusWord, BitVec.getLsbD_append]
  simp

/-! ## The obligations -/

/-- Settles O7: the table facts are those of the built tables, and no other turn writes a table. -/
theorem tableInvariantsHold : Obligations.TableInvariantsHold := by
  refine ⟨fun s hs => ⟨s.bootstrap, step_boot s hs, builtTables_alog_log, builtTables_log_alog,
    ne_zero_iff_builtTables_alog⟩, fun s t turn h hreset hboot => ?_⟩
  cases turn with
  | bus x =>
    cases (step_bus s x).symm.trans h
    exact s.transact_tables x
  | engine => exact State.engineTurn_tables (step_engine s ▸ h) (hboot rfl)
  | hardReset => exact absurd rfl hreset

/-- Settles O30: an engine write cell by cell, and every command's polynomial results are storable. -/
theorem engineWritesAreCanonical : Obligations.EngineWritesAreCanonical := by
  refine ⟨fun s d p _ hlen => ?_, fun i s t d hok he hd => ?_⟩
  · have hget (r : Fin 8) : (s.setPoly d p).pregs[r] = if d = r then PolyReg.ofPoly p else s.pregs[r] :=
      s.preg_setPreg d r _
    refine ⟨?_, fun j => ?_, fun r hr => ?_⟩
    · rw [hget, if_pos rfl, PolyReg.ofPoly_len p hlen]
    · rw [hget, if_pos rfl]
      exact (PolyReg.ofPoly_cell p j j.isLt).trans (coeff_eq_dite p j)
    · rw [hget, if_neg (Ne.symm hr)]
  · obtain ⟨p, ⟨hc, hlen⟩, e⟩ := exec_holdsStorable hok he hd
    exact ⟨p, hc, hlen, e⟩

/-- Settles O31: trimming, and the cells a value is read from. -/
theorem polynomialValueIsTrimmed : Obligations.PolynomialValueIsTrimmed := by
  refine ⟨fun l => ?_, fun _ => rfl, fun _ _ => PolyReg.value_congr⟩
  obtain ⟨k, hk⟩ := eq_canon_append_zeros l
  exact ⟨k, hk, canon_getLast?_ne_zero l⟩

/-- Settles O33, by the turn: a transaction moves the phase as `State.transact_phase` says. -/
theorem phaseMovesAsRuled : Obligations.PhaseMovesAsRuled := by
  intro s t turn h
  refine ⟨by rw [State.statusWord_busy, State.busy_iff], ?_⟩
  cases turn with
  | hardReset =>
    cases (step_hardReset s).symm.trans h
    exact ⟨fun _ => rfl, by simp, by simp, by simp, by simp⟩
  | engine => exact ⟨by simp, fun _ => State.engineTurn_phase (step_engine s ▸ h), by simp, by simp, by simp⟩
  | bus x =>
    cases (step_bus s x).symm.trans h
    refine ⟨by simp, by simp, ?_, ?_, ?_⟩
    · rintro w ⟨⟩ hi
      have hb := s.not_busy_iff.2 hi
      simp [State.transact, State.busWrite_cmd, hb, answered]
    · rintro v w ⟨⟩ hv hs
      simp [State.transact, State.busWrite_ctrl, answered, afterCtrlWrite_phase, hv, hs]
    · rintro x ⟨⟩ hcmd hsoft
      obtain ⟨w, hx, hi, -⟩ | ⟨v, hx, hv, hs, -⟩ | e := s.transact_phase x
      · exact absurd ⟨hi, w, hx⟩ hcmd
      · exact absurd ⟨hs, v, hv, hx⟩ hsoft
      · exact e

/-- Settles O37: the reset values field by field, and the bootstrap's tables by the loop. -/
theorem resetValues : Obligations.ResetValues := by
  refine ⟨reset_sreg, fun i => ?_, fun i j => ?_, rfl, rfl, rfl, by decide, by decide, rfl, rfl, rfl, rfl,
    State.reset.bootstrap, rfl, (bootstrapTables_eq_builtTables _).symm⟩
  · rw [reset_preg]; rfl
  · rw [reset_preg]; exact clear_cell j

end Sys2Proof.Machine

/-! PROOFS. The statements of 20_memory.md: bad accesses (R62), the data, table, result and control windows (R65 to
R70), reserved and read-only offsets (R71) and accesses while BUSY (R72), each from what one aligned transaction does at
the target its offset names. -/

namespace Sys2Proof.Machine

/-! ## The step of a transaction -/

/-- The step of a read, from what the read does. -/
theorem step_read {s t : State} {a : Offset} {width : Nat} (h : s.busRead a width = t) :
    step (withTurn s (.bus (.read a width))) = .next t :=
  congrArg _ h

/-- The step of a write, from what the write does. -/
theorem step_write {s t : State} {a : Offset} {width : Nat} {v : Word} (h : s.busWrite a width v = t) :
    step (withTurn s (.bus (.write a width v))) = .next t :=
  congrArg _ h

/-! ## Reads by target -/

/-- A bad read faults, whatever the offset names (20_memory.md R62). -/
theorem State.busRead_bad (s : State) {a : Offset} {width : Nat} (h : badAccess a width = true) :
    s.busRead a width = busFailed s 0x07 a (some 0) := by
  rw [State.busRead, if_pos h, State.readFault_eq]

/-- A bad write faults, whatever the offset names (20_memory.md R62). -/
theorem State.busWrite_bad (s : State) {a : Offset} {width : Nat} (v : Word) (h : badAccess a width = true) :
    s.busWrite a width v = busFailed s 0x07 a none := by
  rw [State.busWrite, if_pos h, State.writeFault_eq, ErrKind.code]

/-- A register reads its word where it is no data register or the engine is in IDLE (20_memory.md R65 to R70, R72). -/
theorem State.busRead_regWord (s : State) {n : Nat} {t : Target} (h4 : n % 4 = 0) (ht : targetOf (offset n) = t)
    (hr : t ≠ .reserved) (h : s.phase = .idle ∨ t.isData = false) :
    s.busRead (offset n) 4 = answered s (some (s.regWord t)) := by
  have hb : (s.busy && t.isData) = false := by
    obtain h | h := h
    · rw [s.not_busy_iff.2 h, Bool.false_and]
    · rw [h, Bool.and_false]
  rw [s.busRead_target n h4 t ht, if_neg hr, if_neg (by simp [hb])]

/-- While BUSY a data register or a table answers a free value (20_memory.md R72). -/
theorem State.busRead_busy_data (s : State) {n : Nat} (h4 : n % 4 = 0) (hb : s.busy = true)
    (hd : (targetOf (offset n)).isData = true) :
    s.busRead (offset n) 4 = { answered s (some (Config.freeWord s.draws)) with draws := s.draws + 1 } := by
  have hr : targetOf (offset n) ≠ .reserved := fun e => by rw [e] at hd; cases hd
  rw [s.busRead_target n h4 _ rfl, if_neg hr, if_pos (by rw [hb, hd]; rfl)]

/-! ## Writes by target -/

/-- A write to a reserved offset or a read-only register faults (20_memory.md R71). -/
theorem State.busWrite_readOnly (s : State) {n : Nat} (v : Word) (h4 : n % 4 = 0)
    (h : ReservedOffset n ∨ ReadOnlyOffset n) : s.busWrite (offset n) 4 v = busFailed s 0x07 (offset n) none := by
  have hfault : s.writeFault .eacc (offset n) = busFailed s 0x07 (offset n) none := s.writeFault_eq .eacc _
  rw [State.busWrite, badAccess_false n h4, if_neg Bool.false_ne_true]
  obtain h | h := h
  · rw [targetOf_reserved n h, ← hfault]
  · obtain e | e | e | ⟨k, e⟩ | ⟨w, e⟩ | ⟨i, e⟩ := targetOf_readOnly n h <;> rw [e, ← hfault]

/-- A write of S_i is a checked one (20_memory.md R65). -/
theorem State.busWrite_sreg (s : State) {n : Nat} {i : RegIdx} (v : Word) (h4 : n % 4 = 0)
    (ht : targetOf (offset n) = .sreg i) :
    s.busWrite (offset n) 4 v = s.writeChecked (offset n) (fitsElement v) (s.setSreg i (v.setWidth 8)) := by
  rw [State.busWrite, badAccess_false n h4, if_neg Bool.false_ne_true, ht]

/-- A write of LEN_i is a checked one (20_memory.md R66). -/
theorem State.busWrite_len (s : State) {n : Nat} {i : RegIdx} (v : Word) (h4 : n % 4 = 0)
    (ht : targetOf (offset n) = .len i) :
    s.busWrite (offset n) 4 v = s.writeChecked (offset n) (fitsLength v) (s.setLen i (v.setWidth 9)) := by
  rw [State.busWrite, badAccess_false n h4, if_neg Bool.false_ne_true, ht]

/-- A write of CELL_p[j] is a checked one (20_memory.md R67). -/
theorem State.busWrite_cell (s : State) {n : Nat} {p : RegIdx} {j : Fin 256} (v : Word) (h4 : n % 4 = 0)
    (ht : targetOf (offset n) = .cell p j) :
    s.busWrite (offset n) 4 v = s.writeChecked (offset n) (fitsElement v) (s.setCell p j (v.setWidth 8)) := by
  rw [State.busWrite, badAccess_false n h4, if_neg Bool.false_ne_true, ht]

/-- A checked write is refused while BUSY (20_memory.md R72). -/
theorem State.writeChecked_busy {s : State} (hb : s.busy = true) (a : Offset) (ok : Bool) (written : State) :
    s.writeChecked a ok written = busFailed s 0x06 a none := by
  rw [State.writeChecked_eq, if_pos hb]

/-- In IDLE a checked write raises ERANGE out of range, and is done in range (20_memory.md R65 to R67). -/
theorem step_write_checked {s written : State} {a : Offset} {width : Nat} {v : Word} {ok : Bool} (hi : s.phase = .idle)
    (hw : s.busWrite a width v = s.writeChecked a ok written) :
    (¬ ok = true → step (withTurn s (.bus (.write a width v))) = .next (busFailed s 0x05 a none)) ∧
    (ok = true → step (withTurn s (.bus (.write a width v))) = .next (answered written none)) := by
  rw [State.writeChecked_eq, s.not_busy_iff.2 hi, if_neg Bool.false_ne_true] at hw
  exact ⟨fun hok => step_write (hw.trans (if_neg hok)), fun hok => step_write (hw.trans (if_pos hok))⟩

/-- While BUSY a write to CMD, S, LEN or CELL raises EBUSY (20_memory.md R72). -/
theorem State.busWrite_busy (s : State) {n : Nat} (v : Word) (h4 : n % 4 = 0) (hb : s.busy = true)
    (h : RefusedWhileBusy n) : s.busWrite (offset n) 4 v = busFailed s 0x06 (offset n) none := by
  obtain e | ⟨i, e⟩ | ⟨i, e⟩ | ⟨p, j, e⟩ := targetOf_refused n h
  · rw [State.busWrite, badAccess_false n h4, if_neg Bool.false_ne_true, e]
    exact State.writeChecked_busy hb _ _ _
  · rw [s.busWrite_sreg v h4 e, State.writeChecked_busy hb]
  · rw [s.busWrite_len v h4 e, State.writeChecked_busy hb]
  · rw [s.busWrite_cell v h4 e, State.writeChecked_busy hb]

/-! ## Ranges -/

/-- The element range by number (20_memory.md R65, R67). -/
theorem fitsElement_iff (v : Word) : fitsElement v = true ↔ v.toNat ≤ 255 := by
  rw [fitsElement, beq_iff_eq, ← BitVec.toNat_inj, BitVec.extractLsb'_toNat]
  simp only [Nat.shiftRight_eq_div_pow, BitVec.ofNat_eq_ofNat, BitVec.toNat_ofNat]
  omega

/-- The length range by number (20_memory.md R66). -/
theorem fitsLength_iff (v : Word) : fitsLength v = true ↔ v.toNat ≤ 256 := decide_eq_true_iff

/-- The value of a register is canon of its first n cells after LEN was written n ≤ 256 (20_memory.md R66). -/
theorem PolyReg.value_of_len (cells : Table) {n : Nat} (h : n ≤ 256) :
    PolyReg.value { len := BitVec.ofNat 9 n, cells := cells } = canon (cells.toList.take n) := by
  rw [PolyReg.value, BitVec.toNat_ofNat, Nat.mod_eq_of_lt (by omega)]

/-! ## The CTRL and STATUS words -/

/-- A concatenation as a number. -/
theorem toNat_append_eq_add {m n : Nat} (x : BitVec m) (y : BitVec n) :
    (x ++ y).toNat = x.toNat * 2 ^ n + y.toNat := by
  rw [BitVec.toNat_append, ← Nat.shiftLeft_add_eq_or_of_lt y.isLt, Nat.shiftLeft_eq]

/-- The layout of CTRL (10_state.md R33). -/
theorem State.ctrlWord_toNat (s : State) : s.ctrlWord.toNat = 2 * s.ctrl.ieDone.toNat + 4 * s.ctrl.ieErr.toNat := by
  simp only [State.ctrlWord, toNat_append_eq_add, BitVec.toNat_ofBool, BitVec.toNat_ofNat]
  omega

/-- BUSY as a number (10_state.md R37). -/
theorem State.busy_toNat (s : State) : s.busy.toNat = if s.phase = .idle then 0 else 1 := by
  split
  · rw [s.not_busy_iff.2 ‹_›]; rfl
  · rw [s.busy_iff.2 ‹_›]; rfl

/-- The layout of STATUS (10_state.md R34). -/
theorem State.statusWord_toNat (s : State) :
    s.statusWord.toNat = (if s.phase = .idle then 0 else 1) + 2 * s.status.ready.toNat + 4 * s.status.done.toNat +
      8 * s.status.err.toNat + 16 * s.status.zero.toNat + 32 * s.status.emult.toNat +
      256 * s.status.errcode.toNat := by
  rw [← s.busy_toNat]
  simp only [State.statusWord, toNat_append_eq_add, BitVec.toNat_ofBool, BitVec.toNat_ofNat]
  omega

/-! ## Reads of the control registers -/

/-- ID, CTRL, STATUS, LASTCMD and ERRINFO read their words in every phase (20_memory.md R70, R72). -/
theorem step_read_control (s : State) :
    step (withTurn s (.bus (.read (offset 0x00) 4))) = .next (answered s (some 0x47465045)) ∧
    step (withTurn s (.bus (.read (offset 0x04) 4))) = .next (answered s (some s.ctrlWord)) ∧
    step (withTurn s (.bus (.read (offset 0x08) 4))) = .next (answered s (some s.statusWord)) ∧
    step (withTurn s (.bus (.read (offset 0x0C) 4))) = .next (answered s (some s.lastcmd)) ∧
    step (withTurn s (.bus (.read (offset 0x10) 4))) = .next (answered s (some s.errinfo)) := by
  have hread (n : Nat) (t : Target) (h4 : n % 4 = 0) (ht : targetOf (offset n) = t) (hr : t ≠ .reserved)
      (hd : t.isData = false) :
      step (withTurn s (.bus (.read (offset n) 4))) = .next (answered s (some (s.regWord t))) :=
    step_read (s.busRead_regWord h4 ht hr (.inr hd))
  exact ⟨hread 0x00 .id rfl rfl nofun rfl, hread 0x04 .ctrl rfl rfl nofun rfl, hread 0x08 .status rfl rfl nofun rfl,
    hread 0x0C .cmd rfl rfl nofun rfl, hread 0x10 .errinfo rfl rfl nofun rfl⟩

/-! ## The obligations -/

/-- Settles O41: the access check comes first. -/
theorem unalignedOrNarrowAccessFaults : Obligations.UnalignedOrNarrowAccessFaults := by
  intro s a width v h
  have hbad := badAccess_true a width h
  exact ⟨step_read (s.busRead_bad hbad), step_write (s.busWrite_bad v hbad)⟩

/-- Settles O42: the offsets name nothing, or a register no write reaches. -/
theorem reservedAndReadOnlyOffsetsFault : Obligations.ReservedAndReadOnlyOffsetsFault := by
  intro s n v h4 _
  refine ⟨fun h => step_read ?_, fun h => step_write (s.busWrite_readOnly v h4 h)⟩
  exact (s.busRead_target n h4 _ (targetOf_reserved n h)).trans (if_pos rfl)

/-- Settles O43, by the kind of register. -/
theorem busyAccess : Obligations.BusyAccess := by
  intro s hp
  have hb : s.busy = true := s.busy_iff.2 hp
  refine ⟨step_read_control s, fun n h4 _ hu => ?_,
    fun n v h4 _ hr => step_write (s.busWrite_busy v h4 hb hr),
    fun v => ⟨step_write (s.busWrite_ctrl v), step_write (s.busWrite_status v)⟩⟩
  exact ⟨_, _, step_read (s.busRead_busy_data h4 hb (targetOf_unspecified n hu)), rfl⟩

/-- Settles O44: a checked write with the element range. -/
theorem scalarWindow : Obligations.ScalarWindow := by
  intro s i v hi
  have h4 : (0x20 + 4 * i.val) % 4 = 0 := by omega
  obtain ⟨hout, hin⟩ := step_write_checked hi (s.busWrite_sreg v h4 (targetOf_sreg i))
  exact ⟨step_read (s.busRead_regWord h4 (targetOf_sreg i) nofun (.inl hi)),
    fun hv => hout (mt (fitsElement_iff v).1 hv.not_ge), fun hv => hin ((fitsElement_iff v).2 hv)⟩

/-- Settles O45: a checked write with the length range, and the value of the register it leaves. -/
theorem lengthWindow : Obligations.LengthWindow := by
  intro s i v hi
  have h4 : (0x60 + 4 * i.val) % 4 = 0 := by omega
  obtain ⟨hout, hin⟩ := step_write_checked hi (s.busWrite_len v h4 (targetOf_len i))
  refine ⟨step_read (s.busRead_regWord h4 (targetOf_len i) nofun (.inl hi)),
    fun hv => hout (mt (fitsLength_iff v).1 hv.not_ge), fun hv => ⟨_, hin ((fitsLength_iff v).2 hv), rfl, ?_⟩⟩
  have hreg := (s.preg_setPreg i i { s.pregs[i] with len := v.setWidth 9 }).trans (if_pos rfl)
  exact (congrArg PolyReg.value hreg).trans (PolyReg.value_of_len _ hv)

/-- Settles O46: a checked write with the element range. -/
theorem coefficientWindow : Obligations.CoefficientWindow := by
  intro s p j v hi
  have h4 : (0x1000 + 0x400 * p.val + 4 * j.val) % 4 = 0 := by omega
  obtain ⟨hout, hin⟩ := step_write_checked hi (s.busWrite_cell v h4 (targetOf_cell p j))
  exact ⟨step_read (s.busRead_regWord h4 (targetOf_cell p j) nofun (.inl hi)),
    fun hv => hout (mt (fitsElement_iff v).1 hv.not_ge), fun hv => hin ((fitsElement_iff v).2 hv)⟩

/-- Settles O47: LOG and ALOG are read by target and read-only. -/
theorem tableWindows : Obligations.TableWindows := by
  intro s i v
  have hlog : (0x4000 + 4 * i.val) % 4 = 0 := by omega
  have halog : (0x4400 + 4 * i.val) % 4 = 0 := by omega
  refine ⟨fun hi => ⟨step_read (s.busRead_regWord hlog (targetOf_log i) nofun (.inl hi)),
      step_read (s.busRead_regWord halog (targetOf_alog i) nofun (.inl hi))⟩,
    step_write (s.busWrite_readOnly v hlog (.inr ?_)), step_write (s.busWrite_readOnly v halog (.inr ?_))⟩
  all_goals unfold ReadOnlyOffset; omega

/-- Settles O48: ROOTCNT and ROOTMAP_k are read by target and read-only. -/
theorem resultWindows : Obligations.ResultWindows := by
  intro s k v
  have h4 : (0x40 + 4 * k.val) % 4 = 0 := by omega
  refine ⟨fun hi => ⟨step_read (s.busRead_regWord (n := 0x14) (t := .rootcnt) rfl rfl nofun (.inl hi)), _,
      step_read (s.busRead_regWord h4 (targetOf_rootmap k) nofun (.inl hi)), fun j hj => ?_⟩,
    step_write (s.busWrite_readOnly v rfl (.inr (.inr (.inr (.inl rfl))))),
    step_write (s.busWrite_readOnly v h4 (.inr ?_))⟩
  · simp [State.regWord, hj]
  · unfold ReadOnlyOffset; omega

/-- Settles O49: the control registers are read by target in every phase, and their words are laid out by
`State.ctrlWord_toNat` and `State.statusWord_toNat`. -/
theorem controlWindows : Obligations.ControlWindows := by
  intro s v
  obtain ⟨hid, hctrl, hstatus, hlastcmd, herrinfo⟩ := step_read_control s
  refine ⟨hid, ⟨_, hctrl, s.ctrlWord_toNat⟩, ⟨_, hstatus, s.statusWord_toNat⟩, hlastcmd, herrinfo,
    step_write (s.busWrite_ctrl v), step_write (s.busWrite_status v),
    step_write ((s.busWrite_cmd v).trans ?_)⟩
  by_cases hi : s.phase = .idle
  · rw [if_neg (by simp [s.not_busy_iff.2 hi]), if_pos hi]; rfl
  · rw [if_pos (s.busy_iff.2 hi), if_neg hi]

end Sys2Proof.Machine

/-! PROOFS. The statements of 30_encoding.md: which words name a command (R94, R95, R97 to R100) and the acceptance of a
command word (R105). A row of the opcode map fixes OPC and, by its mask, what the fields below it may hold; each operand
form of the decoder checks exactly the mask of its rows. -/

namespace Sys2Proof

/-! ## A word and a mask field by field -/

/-- Appended parts are equal part by part. -/
theorem append_eq_append_iff {n m : Nat} {x x' : BitVec n} {y y' : BitVec m} :
    x ++ y = x' ++ y' ↔ x = x' ∧ y = y' := by
  refine ⟨fun h => ?_, fun ⟨hx, hy⟩ => by rw [hx, hy]⟩
  have hx := congrArg (BitVec.extractLsb' m n) h
  have hy := congrArg (BitVec.extractLsb' 0 m) h
  simpa only [BitVec.extractLsb'_append_eq_left, BitVec.extractLsb'_append_eq_right] using And.intro hx hy

/-- A word has no bit of a mask set when no part of it has one of its part of the mask. -/
theorem append_and_append_eq_zero_iff {n m : Nat} {x x' : BitVec n} {y y' : BitVec m} :
    (x ++ y) &&& (x' ++ y') = 0#(n + m) ↔ x &&& x' = 0#n ∧ y &&& y' = 0#m := by
  rw [BitVec.and_append, ← BitVec.zero_append_zero, append_eq_append_iff]

/-- Bits 23:0, all of a word but OPC (30_encoding.md R90). -/
def operandBits (w : Word) : BitVec 24 := w.extractLsb' 0 24

theorem opcField_append_operandBits (w : Word) : opcField w ++ operandBits w = w := by
  rw [opcField, operandBits, BitVec.extractLsb'_append_extractLsb'_eq_extractLsb' (Nat.zero_add 24).symm]
  exact BitVec.extractLsb'_eq_self

theorem operandBits_eq_fields (w : Word) :
    operandBits w = dField w ++ aField w ++ bField w ++ eField w ++ zField w := by
  apply BitVec.eq_of_toNat_eq
  simp only [toNat_append_eq, dField_toNat, aField_toNat, bField_toNat, eField_toNat, zField_toNat, operandBits,
    BitVec.extractLsb'_toNat]
  omega

/-- The must-be-zero bits among bits 23:0, by field: all bits of an unused field (30_encoding.md R95), bit 3 of a register
field (R94), none of an immediate (R96). -/
def operandMask (d a b e : BitVec 4) (z : Byte) : BitVec 24 := d ++ a ++ b ++ e ++ z

theorem operandBits_and_operandMask_iff (w : Word) (d a b e : BitVec 4) (z : Byte) :
    operandBits w &&& operandMask d a b e z = 0 ↔
      dField w &&& d = 0 ∧ aField w &&& a = 0 ∧ bField w &&& b = 0 ∧ eField w &&& e = 0 ∧ zField w &&& z = 0 := by
  rw [operandBits_eq_fields]
  refine append_and_append_eq_zero_iff.trans ?_
  simp only [append_and_append_eq_zero_iff, and_assoc]
  rfl

/-! ## The rows of the opcode map by opcode and operand form (30_encoding.md R97) -/

def maskN : BitVec 24 := operandMask (.allOnes 4) (.allOnes 4) (.allOnes 4) (.allOnes 4) (.allOnes 8)
def maskDAB : BitVec 24 := operandMask 8 8 8 (.allOnes 4) (.allOnes 8)
def maskDABE : BitVec 24 := operandMask 8 8 8 8 (.allOnes 8)
def maskDA : BitVec 24 := operandMask 8 8 (.allOnes 4) (.allOnes 4) (.allOnes 8)
def maskA : BitVec 24 := operandMask (.allOnes 4) 8 (.allOnes 4) (.allOnes 4) (.allOnes 8)
def maskDAI : BitVec 24 := operandMask 8 8 0 0 0
def maskDI : BitVec 24 := operandMask 8 (.allOnes 4) 0 0 0

/-- The opcodes with the masks of their operand forms; `opcodeRows_eq` ties them to the map. -/
def operandMaskRows : List (Byte × BitVec 24) :=
  [(0x00, maskN), (0x10, maskDAB), (0x11, maskDAB), (0x12, maskDAB), (0x13, maskDAB), (0x14, maskDAI),
    (0x20, maskDA), (0x21, maskDAB), (0x22, maskDAB), (0x23, maskDABE), (0x24, maskDAB), (0x25, maskDAB),
    (0x26, maskDA), (0x30, maskDI), (0x31, maskDAI), (0x32, maskA)]

theorem opcodeRows_eq :
    Machine.opcodeRows = operandMaskRows.map fun r => (r.1 ++ 0#24, 0xFF#8 ++ r.2) := by decide

/-- A word matches a row when it has the row's opcode and no must-be-zero bit set. -/
theorem and_row_eq_iff (w : Word) (opc : Byte) (m : BitVec 24) :
    w &&& (0xFF#8 ++ m) = opc ++ 0#24 ↔ opcField w = opc ∧ operandBits w &&& m = 0 := by
  have hopc : opcField w &&& 0xFF#8 = opcField w := BitVec.and_allOnes
  conv_lhs => rw [← opcField_append_operandBits w, BitVec.and_append, append_eq_append_iff, hopc]
  rfl

theorem exists_matching_row_iff (w : Word) :
    (∃ row ∈ Machine.opcodeRows, w &&& row.2 = row.1) ↔
      ∃ m, (opcField w, m) ∈ operandMaskRows ∧ operandBits w &&& m = 0 := by
  rw [opcodeRows_eq]
  constructor
  · rintro ⟨_, hrow, hfit⟩
    obtain ⟨⟨opc, m⟩, hm, rfl⟩ := List.mem_map.1 hrow
    obtain ⟨rfl, hz⟩ := (and_row_eq_iff w opc m).1 hfit
    exact ⟨m, hm, hz⟩
  · rintro ⟨m, hm, hz⟩
    exact ⟨_, List.mem_map_of_mem hm, (and_row_eq_iff w _ m).2 ⟨rfl, hz⟩⟩

/-- A legal word has the opcode and the zero bits of a row, and is no PDIV with D = E (30_encoding.md R98, R99). -/
theorem not_illegalWord_iff (w : Word) :
    ¬ Machine.IllegalWord w ↔
      (∃ m, (opcField w, m) ∈ operandMaskRows ∧ operandBits w &&& m = 0) ∧
      ¬ ((opcField w = 0x23 ∧ operandBits w &&& maskDABE = 0) ∧ dField w = eField w) := by
  rw [← exists_matching_row_iff, ← and_row_eq_iff, Machine.IllegalWord, not_or]
  push Not
  rfl

/-! ## When each check of the decoder passes -/

theorem exists_bind_eq_ok_iff {α β : Type} {x : Except DecodeError α} {f : α → Except DecodeError β} :
    (∃ b, (x >>= f) = .ok b) ↔ ∃ a, x = .ok a ∧ ∃ b, f a = .ok b := by
  refine ⟨fun ⟨b, h⟩ => ?_, ?_⟩
  · obtain ⟨a, hx, hf⟩ := bind_ok x f b h
    exact ⟨a, hx, b, hf⟩
  · rintro ⟨a, rfl, b, hf⟩
    exact ⟨b, hf⟩

theorem exists_pure_eq_ok {α : Type} (a : α) : ∃ b, (pure a : Except DecodeError α) = .ok b := ⟨a, rfl⟩

/-- An unused field passes when none of its bits is set (30_encoding.md R95). -/
theorem unused_eq_ok_iff {n : Nat} (f : BitVec n) (u : Unit) : unused f = .ok u ↔ f &&& .allOnes n = 0 := by
  by_cases h : f = 0 <;> simp [unused, h]

/-- A register field passes when its bit 3 is clear (30_encoding.md R94). -/
theorem exists_register_eq_ok_iff (f : BitVec 4) : (∃ r, register f = .ok r) ↔ f &&& 8 = 0 := by
  have hbit : f.toNat < 8 ↔ f &&& 8 = 0 := by revert f; decide
  rw [← hbit]
  by_cases h : f.toNat < 8 <;> simp [register, h]

/-- Two register fields name different registers when both pass and they differ (30_encoding.md R99). -/
theorem exists_distinct_registers_iff (f g : BitVec 4) :
    (∃ d, register f = .ok d ∧ ∃ e, register g = .ok e ∧ d ≠ e) ↔ f &&& 8 = 0 ∧ g &&& 8 = 0 ∧ f ≠ g := by
  rw [← exists_register_eq_ok_iff f, ← exists_register_eq_ok_iff g]
  constructor
  · rintro ⟨d, hd, e, he, hne⟩
    refine ⟨⟨d, hd⟩, ⟨e, he⟩, fun hfg => hne ?_⟩
    exact Except.ok.inj (hd.symm.trans (hfg ▸ he))
  · rintro ⟨⟨d, hd⟩, ⟨e, he⟩, hne⟩
    refine ⟨d, hd, e, he, fun hde => hne ?_⟩
    rw [← regBits_of_register f d hd, ← regBits_of_register g e he, hde]

/-- PDIV's last check passes on two different registers (30_encoding.md R99). -/
theorem exists_distinctCheck_eq_ok_iff {d e : RegIdx} {i : Instr} :
    (∃ j, (if d = e then .error .sameDestinations else pure i : Except DecodeError Instr) = .ok j) ↔ d ≠ e := by
  by_cases h : d = e <;> simp [h, pure, Except.pure]

/-! ## When each operand form decodes: no must-be-zero bit of its rows is set -/

theorem exists_decodeN_iff (i : Instr) (w : Word) : (∃ j, decodeN i w = .ok j) ↔ operandBits w &&& maskN = 0 := by
  rw [show maskN = .allOnes 24 by decide]
  simp only [decodeN, exists_bind_eq_ok_iff, unused_eq_ok_iff, exists_pure_eq_ok, exists_const, and_true]
  rfl

theorem exists_decodeDAB_iff (mk : RegIdx → RegIdx → RegIdx → Instr) (w : Word) :
    (∃ i, decodeDAB mk w = .ok i) ↔ operandBits w &&& maskDAB = 0 := by
  simp only [decodeDAB, exists_bind_eq_ok_iff, unused_eq_ok_iff, exists_register_eq_ok_iff, exists_pure_eq_ok,
    exists_and_right, exists_const, and_true, maskDAB, operandBits_and_operandMask_iff]
  tauto

theorem exists_decodeDA_iff (mk : RegIdx → RegIdx → Instr) (w : Word) :
    (∃ i, decodeDA mk w = .ok i) ↔ operandBits w &&& maskDA = 0 := by
  simp only [decodeDA, exists_bind_eq_ok_iff, unused_eq_ok_iff, exists_register_eq_ok_iff, exists_pure_eq_ok,
    exists_and_right, exists_const, and_true, maskDA, operandBits_and_operandMask_iff]
  tauto

theorem exists_decodeA_iff (mk : RegIdx → Instr) (w : Word) :
    (∃ i, decodeA mk w = .ok i) ↔ operandBits w &&& maskA = 0 := by
  simp only [decodeA, exists_bind_eq_ok_iff, unused_eq_ok_iff, exists_register_eq_ok_iff, exists_pure_eq_ok,
    exists_const, and_true, maskA, operandBits_and_operandMask_iff]
  tauto

theorem exists_decodeDAI_iff (mk : RegIdx → RegIdx → BitVec 16 → Instr) (w : Word) :
    (∃ i, decodeDAI mk w = .ok i) ↔ operandBits w &&& maskDAI = 0 := by
  rw [maskDAI, operandBits_and_operandMask_iff]
  simp only [decodeDAI, exists_bind_eq_ok_iff, exists_register_eq_ok_iff, exists_pure_eq_ok, exists_and_right, and_true,
    BitVec.ofNat_eq_ofNat, BitVec.and_zero]

theorem exists_decodeDI_iff (mk : RegIdx → BitVec 16 → Instr) (w : Word) :
    (∃ i, decodeDI mk w = .ok i) ↔ operandBits w &&& maskDI = 0 := by
  rw [maskDI, operandBits_and_operandMask_iff]
  simp only [decodeDI, exists_bind_eq_ok_iff, unused_eq_ok_iff, exists_register_eq_ok_iff, exists_pure_eq_ok,
    exists_const, and_true, BitVec.ofNat_eq_ofNat, BitVec.and_zero]
  tauto

/-- PDIV's form also needs D ≠ E (30_encoding.md R99). -/
theorem exists_decodeDABE_iff (mk : RegIdx → RegIdx → RegIdx → RegIdx → Instr) (w : Word) :
    (∃ i, decodeDABE mk w = .ok i) ↔ operandBits w &&& maskDABE = 0 ∧ dField w ≠ eField w := by
  have hreg := exists_distinct_registers_iff (dField w) (eField w)
  simp only [decodeDABE, exists_bind_eq_ok_iff, unused_eq_ok_iff, exists_distinctCheck_eq_ok_iff, exists_and_right,
    exists_register_eq_ok_iff, exists_const, maskDABE, operandBits_and_operandMask_iff]
  constructor
  · rintro ⟨hz, d, hd, ha, hb, e, he, hne⟩
    obtain ⟨hD, hE, hDE⟩ := hreg.1 ⟨d, hd, e, he, hne⟩
    exact ⟨⟨hD, ha, hb, hE, hz⟩, hDE⟩
  · rintro ⟨⟨hD, ha, hb, hE, hz⟩, hDE⟩
    obtain ⟨d, hd, e, he, hne⟩ := hreg.2 ⟨hD, hE, hDE⟩
    exact ⟨hz, d, hd, ha, hb, e, he, hne⟩

/-! ## Which words name a command -/

/-- A word names a command exactly when it is legal (30_encoding.md R98, R100), by its opcode: each form checks its row's
mask, and only PDIV's has a second condition. -/
theorem exists_decodeWord_iff (w : Word) : (∃ i, decodeWord w = .ok i) ↔ ¬ Machine.IllegalWord w := by
  rw [not_illegalWord_iff, decodeWord]
  split
  case h_10 hpdiv =>
    have hrow : (∃ m, (opcField w, m) ∈ operandMaskRows ∧ operandBits w &&& m = 0) ↔ operandBits w &&& maskDABE = 0 := by
      simp [hpdiv, operandMaskRows]
    rw [exists_decodeDABE_iff, hrow, hpdiv]
    tauto
  case h_17 => simp_all [operandMaskRows]
  -- Every other opcode has the one row whose mask is its form's.
  all_goals
    simp [*, operandMaskRows, exists_decodeN_iff, exists_decodeDAB_iff, exists_decodeDA_iff, exists_decodeA_iff,
      exists_decodeDAI_iff, exists_decodeDI_iff]

/-- Format N (30_encoding.md R93). -/
theorem decodeN_ok {i j : Instr} {w : Word} (h : decodeN i w = .ok j) : j = i ∧ operandBits w = 0 := by
  obtain ⟨_, hz, hi⟩ := bind_ok _ _ _ h
  exact ⟨(Except.ok.inj hi).symm, eq_zero_of_unused _ hz⟩

/-- What a word decodes to is well formed and has that word as its own (30_encoding.md R95, R97, R99), by operand form. -/
theorem decodeWord_ok {w : Word} {i : Instr} (h : decodeWord w = .ok i) : WellFormed i ∧ encode i = w := by
  rw [decodeWord] at h
  split at h
  case h_1 hopc =>
    obtain ⟨rfl, hz⟩ := decodeN_ok h
    rw [← opcField_append_operandBits w, hopc, hz]
    exact ⟨rfl, rfl⟩
  case h_2 hopc | h_3 hopc | h_4 hopc | h_5 hopc | h_8 hopc | h_9 hopc | h_11 hopc | h_12 hopc =>
    obtain ⟨_, _, _, rfl, hw⟩ := decodeDAB_ok h
    rw [hw, hopc]
    exact ⟨rfl, rfl⟩
  case h_6 hopc | h_15 hopc =>
    obtain ⟨_, _, _, rfl, hw⟩ := decodeDAI_ok h
    rw [hw, hopc]
    exact ⟨rfl, rfl⟩
  case h_7 hopc | h_13 hopc =>
    obtain ⟨_, _, rfl, hw⟩ := decodeDA_ok h
    rw [hw, hopc]
    exact ⟨rfl, rfl⟩
  case h_10 hopc =>
    obtain ⟨_, _, _, _, hne, rfl, hw⟩ := decodeDABE_ok h
    rw [hw, hopc]
    exact ⟨bne_iff_ne.2 hne, rfl⟩
  case h_14 hopc =>
    obtain ⟨_, _, rfl, hw⟩ := decodeDI_ok h
    rw [hw, hopc]
    exact ⟨rfl, rfl⟩
  case h_16 hopc =>
    obtain ⟨_, rfl, hw⟩ := decodeA_ok h
    rw [hw, hopc]
    exact ⟨rfl, rfl⟩
  case h_17 => cases h

end Sys2Proof

namespace Sys2Proof.Machine

/-- The engine's turn on an illegal word raises EILL with the word as info (30_encoding.md R98, R107). -/
theorem step_illegalWord {s : State} {w : Word} (hw : IllegalWord w) (hp : s.phase = .exec w) :
    step (withTurn s .engine) = .next (commandFailed s 0x01 w) := by
  rw [step_engine, State.engineTurn, hp]
  obtain ⟨i, hi, -⟩ | ⟨-, -, hrun⟩ := s.runCommand_cases w
  · exact absurd hw ((exists_decodeWord_iff w).1 ⟨i, hi⟩)
  · exact hrun

/-- Settles O4: legality is what the decoder checks, and NOP's only word is its encoding. -/
theorem illegalWordsRaiseEill : Obligations.IllegalWordsRaiseEill := by
  intro w
  refine ⟨fun hw s hp => step_illegalWord hw hp, (exists_decodeWord_iff w).2, fun h => ?_⟩
  exact (decodeWord_ok h).2.symm

/-- Settles O40, by the phase: a CMD write is accepted in IDLE and refused while BUSY. -/
theorem commandWriteIsAcceptedOnlyWhenIdle : Obligations.CommandWriteIsAcceptedOnlyWhenIdle := by
  refine fun s w => ⟨fun hi => ?_, fun hi hinv => hinv.ready_iff.2 (by simp [hi]), fun hp => ?_⟩
  · have hfree : ¬ s.busy = true := by simp [s.not_busy_iff.2 hi]
    refine ⟨_, step_write ((s.busWrite_cmd w).trans (if_neg hfree)), rfl, ?_, fun hw => step_illegalWord hw rfl⟩
    rw [State.statusWord_busy]
    rfl
  · exact step_write ((s.busWrite_cmd w).trans (if_pos (s.busy_iff.2 hp)))

end Sys2Proof.Machine

/-! PROOFS. The statements of 41_field.md: the field laws (R122, R131) and the field-element commands (R125 to R130).
Every nonzero element is a power of the generator 2, and one step of the reference multiply, `shiftReduce`, is
multiplication by 2: the reference multiply commutes with it and each table operation is arithmetic on exponents, so
every law is one on exponents. Only distributivity is read off the reference multiply, which is additive. -/

namespace Sys2Proof

/-! ## The words of the two formats and their decoding (30_encoding.md R91, R92, R97) -/

/-- A format R word with E = 0 by the places of its fields is the word its fields make (30_encoding.md R91). -/
theorem wordR_eq_formatR (opc : Nat) (d a b : RegIdx) :
    Machine.wordR opc d a b 0 = formatR (BitVec.ofNat 8 opc) (regBits d) (regBits a) (regBits b) 0 := by
  apply BitVec.eq_of_toNat_eq
  rw [formatR_toNat, Machine.wordR]
  simp only [regBits_toNat, BitVec.ofNat_eq_ofNat, BitVec.toNat_ofNat]
  omega

/-- A format I word by the places of its fields is the word its fields make (30_encoding.md R92). -/
theorem wordI_eq_formatI (opc : Nat) (d a : RegIdx) (n : BitVec 16) :
    Machine.wordI opc d a n.toNat = formatI (BitVec.ofNat 8 opc) (regBits d) (regBits a) n := by
  apply BitVec.eq_of_toNat_eq
  rw [formatI_toNat, Machine.wordI]
  simp only [regBits_toNat, BitVec.toNat_ofNat]
  omega

/-- Where OPC selects the operand form D, A, B of a command, every D, A and B is read back. -/
theorem decodeWord_wordR {opc : Nat} {mk : RegIdx → RegIdx → RegIdx → Instr}
    (hrow : ∀ w, opcField w = BitVec.ofNat 8 opc → decodeWord w = decodeDAB mk w) (d a b : RegIdx) :
    decodeWord (Machine.wordR opc d a b 0) = .ok (mk d a b) := by
  rw [wordR_eq_formatR opc, hrow _ (opcField_formatR _ _ _ _ _), decodeDAB, eField_formatR, zField_formatR,
    dField_formatR, aField_formatR, bField_formatR, register_regBits, register_regBits, register_regBits]
  rfl

/-- Where OPC selects the operand form D, A, IMM of a command, every D, A and IMM is read back. -/
theorem decodeWord_wordI {opc : Nat} {mk : RegIdx → RegIdx → BitVec 16 → Instr}
    (hrow : ∀ w, opcField w = BitVec.ofNat 8 opc → decodeWord w = decodeDAI mk w) (d a : RegIdx) (n : BitVec 16) :
    decodeWord (Machine.wordI opc d a n.toNat) = .ok (mk d a n) := by
  rw [wordI_eq_formatI opc, hrow _ (opcField_formatI _ _ _ _), decodeDAI, dField_formatI, aField_formatI,
    immField_formatI, register_regBits, register_regBits]
  rfl

/-! The rows of the field-element commands (30_encoding.md R97). -/

theorem decodeWord_gadd (d a b : RegIdx) : decodeWord (Machine.wordR 0x10 d a b 0) = .ok (.gadd d a b) :=
  decodeWord_wordR (fun w h => by simp only [decodeWord, h]) d a b

theorem decodeWord_gmul (d a b : RegIdx) : decodeWord (Machine.wordR 0x11 d a b 0) = .ok (.gmul d a b) :=
  decodeWord_wordR (fun w h => by simp only [decodeWord, h]) d a b

theorem decodeWord_gmulr (d a b : RegIdx) : decodeWord (Machine.wordR 0x12 d a b 0) = .ok (.gmulr d a b) :=
  decodeWord_wordR (fun w h => by simp only [decodeWord, h]) d a b

theorem decodeWord_gdiv (d a b : RegIdx) : decodeWord (Machine.wordR 0x13 d a b 0) = .ok (.gdiv d a b) :=
  decodeWord_wordR (fun w h => by simp only [decodeWord, h]) d a b

theorem decodeWord_gpow (d a : RegIdx) (n : BitVec 16) :
    decodeWord (Machine.wordI 0x14 d a n.toNat) = .ok (.gpow d a n) :=
  decodeWord_wordI (fun w h => by simp only [decodeWord, h]) d a n

end Sys2Proof

namespace Sys2Proof.Machine

/-! ## The reference multiply is additive and commutes with multiplication by 2 (41_field.md R121) -/

/-- A term added under a condition on each of two summands is added to their sum under exactly one of the two. -/
theorem ite_xor_eq (x y : Bool) (p q v : Byte) :
    (if x ^^ y then p ^^^ q ^^^ v else p ^^^ q) = (if x then p ^^^ v else p) ^^^ (if y then q ^^^ v else q) := by
  match x, y with
  | false, false => rfl
  | false, true => exact BitVec.xor_assoc p q v
  | true, false =>
    show p ^^^ q ^^^ v = p ^^^ v ^^^ q
    ac_rfl
  | true, true =>
    calc p ^^^ q = p ^^^ q ^^^ (v ^^^ v) := by rw [BitVec.xor_self, BitVec.xor_zero]
      _ = p ^^^ v ^^^ (q ^^^ v) := by ac_rfl

/-- Multiplication by 2 is additive. -/
theorem shiftReduce_xor (a b : Byte) : shiftReduce (a ^^^ b) = shiftReduce a ^^^ shiftReduce b := by
  rw [shiftReduce, BitVec.getLsbD_xor, BitVec.shiftLeft_xor_distrib, ite_xor_eq]
  rfl

/-- The rounds are additive in the second operand and the accumulator together. -/
theorem slowmulRounds_xor (n : Nat) (a b b' p p' : Byte) :
    slowmulRounds n a (b ^^^ b') (p ^^^ p') = slowmulRounds n a b p ^^^ slowmulRounds n a b' p' := by
  induction n generalizing a b b' p p' with
  | zero => rfl
  | succ n ih =>
    rw [slowmulRounds, BitVec.getLsbD_xor, ite_xor_eq, BitVec.ushiftRight_xor_distrib, ih]
    rfl

/-- The rounds commute with multiplication of the first operand and the accumulator by 2. -/
theorem slowmulRounds_shiftReduce (n : Nat) (a b p : Byte) :
    slowmulRounds n (shiftReduce a) b (shiftReduce p) = shiftReduce (slowmulRounds n a b p) := by
  induction n generalizing a b p with
  | zero => rfl
  | succ n ih => rw [slowmulRounds, ← shiftReduce_xor, ← apply_ite shiftReduce, ih]; rfl

/-- The reference multiply distributes over field addition. -/
theorem slowmul_xor (a b c : Byte) : slowmul a (b ^^^ c) = slowmul a b ^^^ slowmul a c :=
  slowmulRounds_xor 8 a b c 0 0

/-- Multiplying the first operand by 2 multiplies the product by 2. -/
theorem slowmul_shiftReduce (a b : Byte) : slowmul (shiftReduce a) b = shiftReduce (slowmul a b) :=
  slowmulRounds_shiftReduce 8 a b 0

theorem slowmul_shiftReduce_iterate (i : Nat) (a b : Byte) :
    slowmul (shiftReduce^[i] a) b = shiftReduce^[i] (slowmul a b) :=
  Function.Semiconj.iterate_right (f := (slowmul · b)) (fun a => slowmul_shiftReduce a b) i a

theorem slowmul_zero_right (a : Byte) : slowmul a 0 = 0 := by
  simpa using slowmul_xor a 0 0

theorem zero_slowmul (b : Byte) : slowmul 0 b = 0 := by
  revert b; decide +kernel

theorem one_slowmul (b : Byte) : slowmul 1 b = b := by
  revert b; decide +kernel

/-- The factor of the bootstrap loop, 2, in the second place. -/
theorem slowmul_gen (a : Byte) : slowmul a Config.gen = shiftReduce a := by
  revert a; decide +kernel

/-! ## The powers of the generator -/

/-- The generator 2 to the power i, the exponent not reduced. -/
def genPow (i : Nat) : Byte := shiftReduce^[i] 1

@[simp] theorem genPow_zero : genPow 0 = 1 := rfl

theorem bootElements_getD (n i : Nat) (a : Byte) (h : i ≤ n) : (bootElements n a).getD i 0 = shiftReduce^[i] a := by
  induction n generalizing i a with
  | zero => rw [Nat.le_zero.1 h]; rfl
  | succ n ih =>
    cases i with
    | zero => rfl
    | succ i => rw [bootElements, slowmul_gen]; exact ih i _ (Nat.le_of_succ_le_succ h)

theorem Tables.alogAt_of_lt (t : Tables) {i : Nat} (h : i < 256) : t.alogAt i = t.alog[i] := by
  simp [Tables.alogAt, h]

/-- ALOG holds the powers of the generator (10_state.md R27). -/
theorem builtTables_alogAt {i : Nat} (h : i ≤ 255) : builtTables.alogAt i = genPow i := by
  rw [Tables.alogAt_of_lt _ (Nat.lt_succ_of_le h), builtTables_alog_getElem]
  exact bootElements_getD 255 i 1 h

/-- Exponents count modulo 255: the bootstrap loop ends where it began. -/
theorem genPow_mod (i : Nat) : genPow (i % 255) = genPow i := by
  have hperiod : Function.IsPeriodicPt shiftReduce 255 1 := by
    rw [Function.IsPeriodicPt, Function.IsFixedPt]
    decide +kernel
  exact hperiod.iterate_mod_apply i

/-- LOG of a power of the generator is its exponent modulo 255 (10_state.md R28). -/
theorem builtTables_logAt_genPow (i : Nat) : builtTables.logAt (genPow i) = i % 255 := by
  have hlt : i % 255 < 255 := Nat.mod_lt _ (by decide)
  rw [← genPow_mod, ← builtTables_alogAt (by omega), builtTables_log_alog _ (by omega)]

/-- The nonzero elements are the powers of the generator. -/
theorem ne_zero_iff_genPow (a : Byte) : a ≠ 0 ↔ ∃ i, a = genPow i := by
  rw [ne_zero_iff_builtTables_alog]
  constructor
  · rintro ⟨i, hi, rfl⟩
    exact ⟨i, builtTables_alogAt (by omega)⟩
  · rintro ⟨i, rfl⟩
    have hlt : i % 255 < 255 := Nat.mod_lt _ (by decide)
    exact ⟨i % 255, by omega, by rw [builtTables_alogAt (by omega), genPow_mod]⟩

@[simp] theorem genPow_ne_zero (i : Nat) : genPow i ≠ 0 := (ne_zero_iff_genPow _).2 ⟨i, rfl⟩

/-- Every element is 0 or a power of the generator. -/
theorem eq_zero_or_genPow (a : Byte) : a = 0 ∨ ∃ i, a = genPow i :=
  or_iff_not_imp_left.2 (ne_zero_iff_genPow a).1

/-! ## The table operations on powers of the generator (41_field.md R122 to R124) -/

@[simp] theorem gmul_zero_left (t : Tables) (b : Byte) : gmul t 0 b = 0 := if_pos (.inl rfl)
@[simp] theorem gmul_zero_right (t : Tables) (a : Byte) : gmul t a 0 = 0 := if_pos (.inr rfl)
@[simp] theorem gdiv_zero_left (t : Tables) (b : Byte) : gdiv t 0 b = 0 := if_pos rfl
@[simp] theorem gpow_zero_left (t : Tables) (n : Nat) : gpow t 0 n = 0 := if_pos rfl

/-- A product of powers adds the exponents. -/
@[simp] theorem gmul_genPow (i j : Nat) : gmul builtTables (genPow i) (genPow j) = genPow (i + j) := by
  have hlt : (i % 255 + j % 255) % 255 < 255 := Nat.mod_lt _ (by decide)
  rw [gmul, if_neg (not_or.2 ⟨genPow_ne_zero i, genPow_ne_zero j⟩), builtTables_logAt_genPow,
    builtTables_logAt_genPow, Config.order, builtTables_alogAt (by omega), ← Nat.add_mod, genPow_mod]

/-- A quotient of powers takes the exponent away. -/
theorem gdiv_genPow (i j : Nat) : gdiv builtTables (genPow (i + j)) (genPow j) = genPow i := by
  have hindex : (if ((i + j) % 255 : Nat) - (j % 255 : Nat) < (0 : Int)
      then ((i + j) % 255 : Nat) - (j % 255 : Nat) + (255 : Int)
      else ((i + j) % 255 : Nat) - (j % 255 : Nat)).toNat = i % 255 := by omega
  have hlt : i % 255 < 255 := Nat.mod_lt _ (by decide)
  rw [gdiv, if_neg (genPow_ne_zero _), builtTables_logAt_genPow, builtTables_logAt_genPow]
  simp only [Config.order, Nat.cast_ofNat, hindex]
  rw [builtTables_alogAt (by omega), genPow_mod]

/-- A power of a power multiplies the exponents. -/
@[simp] theorem gpow_genPow (i n : Nat) : gpow builtTables (genPow i) n = genPow (i * n) := by
  rw [gpow, if_neg (genPow_ne_zero i)]
  split
  case isTrue h => rw [h, Nat.mul_one]
  case isFalse =>
    have hlt : i % 255 * n % 255 < 255 := Nat.mod_lt _ (by decide)
    rw [builtTables_logAt_genPow, Config.order, builtTables_alogAt (by omega), Nat.mod_mul_mod, genPow_mod]

/-- The reference multiply adds the exponents of powers, as table multiplication does. -/
theorem slowmul_genPow (i j : Nat) : slowmul (genPow i) (genPow j) = genPow (i + j) := by
  rw [genPow, slowmul_shiftReduce_iterate, one_slowmul, genPow, genPow, Function.iterate_add_apply]

/-! ## The laws of the field (41_field.md R122, R131) -/

/-- Table multiplication is the reference multiply (41_field.md R122). -/
theorem gmul_eq_slowmul (a b : Byte) : gmul builtTables a b = slowmul a b := by
  obtain rfl | ⟨i, rfl⟩ := eq_zero_or_genPow a
  · rw [gmul_zero_left, zero_slowmul]
  obtain rfl | ⟨j, rfl⟩ := eq_zero_or_genPow b
  · rw [gmul_zero_right, slowmul_zero_right]
  · rw [gmul_genPow, slowmul_genPow]

theorem gmul_gadd (a b c : Byte) :
    gmul builtTables a (gadd b c) = gadd (gmul builtTables a b) (gmul builtTables a c) := by
  simp only [gmul_eq_slowmul, gadd, slowmul_xor]

theorem gmul_comm (a b : Byte) : gmul builtTables a b = gmul builtTables b a := by
  obtain rfl | ⟨i, rfl⟩ := eq_zero_or_genPow a
  · rw [gmul_zero_left, gmul_zero_right]
  obtain rfl | ⟨j, rfl⟩ := eq_zero_or_genPow b
  · rw [gmul_zero_left, gmul_zero_right]
  · rw [gmul_genPow, gmul_genPow, Nat.add_comm]

theorem gmul_assoc (a b c : Byte) :
    gmul builtTables (gmul builtTables a b) c = gmul builtTables a (gmul builtTables b c) := by
  obtain rfl | ⟨i, rfl⟩ := eq_zero_or_genPow a
  · simp only [gmul_zero_left]
  obtain rfl | ⟨j, rfl⟩ := eq_zero_or_genPow b
  · simp only [gmul_zero_left, gmul_zero_right]
  obtain rfl | ⟨k, rfl⟩ := eq_zero_or_genPow c
  · simp only [gmul_zero_right]
  · simp only [gmul_genPow, Nat.add_assoc]

@[simp] theorem one_gmul (a : Byte) : gmul builtTables 1 a = a := by
  rw [gmul_eq_slowmul, one_slowmul]

@[simp] theorem gmul_one (a : Byte) : gmul builtTables a 1 = a := by
  rw [gmul_comm, one_gmul]

/-- No two nonzero elements have the product 0. -/
theorem gmul_eq_zero_iff (a b : Byte) : gmul builtTables a b = 0 ↔ a = 0 ∨ b = 0 := by
  refine ⟨fun h => ?_, fun h => if_pos h⟩
  by_contra! hne
  obtain ⟨⟨i, rfl⟩, ⟨j, rfl⟩⟩ := hne.imp (ne_zero_iff_genPow a).1 (ne_zero_iff_genPow b).1
  exact genPow_ne_zero _ ((gmul_genPow i j).symm.trans h)

/-- Division undoes multiplication. -/
theorem gdiv_gmul_cancel (a : Byte) {b : Byte} (hb : b ≠ 0) : gdiv builtTables (gmul builtTables a b) b = a := by
  obtain ⟨j, rfl⟩ := (ne_zero_iff_genPow b).1 hb
  obtain rfl | ⟨i, rfl⟩ := eq_zero_or_genPow a
  · rw [gmul_zero_left, gdiv_zero_left]
  · rw [gmul_genPow, gdiv_genPow]

theorem gdiv_self {a : Byte} (ha : a ≠ 0) : gdiv builtTables a a = 1 := by
  simpa only [one_gmul] using gdiv_gmul_cancel 1 ha

theorem gpow_three (a : Byte) : gpow builtTables a 3 = gmul builtTables (gmul builtTables a a) a := by
  obtain rfl | ⟨i, rfl⟩ := eq_zero_or_genPow a
  · simp only [gpow_zero_left, gmul_zero_left]
  · simp only [gpow_genPow, gmul_genPow]
    congr 1
    omega

/-! ## Powers (41_field.md R124, R130) -/

theorem gpow_ne_zero {a : Byte} (ha : a ≠ 0) (n : Nat) : gpow builtTables a n ≠ 0 := by
  obtain ⟨i, rfl⟩ := (ne_zero_iff_genPow a).1 ha
  rw [gpow_genPow]
  exact genPow_ne_zero _

theorem gpow_exp_zero {a : Byte} (ha : a ≠ 0) : gpow builtTables a 0 = 1 := by
  obtain ⟨i, rfl⟩ := (ne_zero_iff_genPow a).1 ha
  rw [gpow_genPow, Nat.mul_zero, genPow_zero]

theorem gpow_one (t : Tables) (a : Byte) : gpow t a 1 = a := by
  rw [gpow, if_pos rfl, ite_eq_right_iff]
  exact Eq.symm

/-- Exponents count modulo 255, whatever the base. -/
theorem gpow_add_255 (a : Byte) (n : Nat) : gpow builtTables a (n + 255) = gpow builtTables a n := by
  obtain rfl | ⟨i, rfl⟩ := eq_zero_or_genPow a
  · rw [gpow_zero_left, gpow_zero_left]
  · rw [gpow_genPow, gpow_genPow, ← genPow_mod, Nat.mul_add, Nat.add_mul_mod_self_right, genPow_mod]

theorem gpow_255 {a : Byte} (ha : a ≠ 0) : gpow builtTables a 255 = 1 :=
  (gpow_add_255 a 0).trans (gpow_exp_zero ha)

/-- The power 254 is the inverse. -/
theorem gmul_gpow_254 {a : Byte} (ha : a ≠ 0) : gmul builtTables a (gpow builtTables a 254) = 1 := by
  have h255 := gpow_255 ha
  obtain ⟨i, rfl⟩ := (ne_zero_iff_genPow a).1 ha
  rw [gpow_genPow] at h255 ⊢
  rw [gmul_genPow, ← h255]
  congr 1
  omega

theorem gpow_254 {a : Byte} (ha : a ≠ 0) : gpow builtTables a 254 = gdiv builtTables 1 a := by
  rw [← gmul_gpow_254 ha, gmul_comm, gdiv_gmul_cancel _ ha]

/-! ## The commands (41_field.md R125 to R130): the end state of each, whole -/

/-- A command whose outcome is the end of a scalar result answers the state with that result. -/
theorem exec_eq_of_finishScalar {i : Instr} {s : State} {d : RegIdx} {r : Byte}
    (h : exec i s = .next (s.finishScalar d r)) :
    exec i s = .next { s with
      sregs := s.sregs.set d r
      status := { s.status with zero := r == 0, done := true }
      phase := .idle } :=
  h.trans (congrArg _ (s.finishScalar_eq d r))

/-- GDIV by 0 raises EDIVZ with its word (41_field.md R129; 60_exceptions.md R221). -/
theorem exec_gdiv_by_zero (d a : RegIdx) {b : RegIdx} {s : State} (h : s.sregs[b] = 0) :
    exec (.gdiv d a b) s = .next (commandFailed s 0x02 (wordR 0x13 d a b 0)) := by
  rw [wordR_eq_formatR]
  exact exec_of_commandError (.gdiv d a b) s 0x02 (if_pos h)

/-! ## The obligations -/

/-- Settles O8: the formula is the definition, and on powers of 2 both multiplications add the exponents. -/
theorem tableMultiplyIsReferenceMultiply : Obligations.TableMultiplyIsReferenceMultiply :=
  fun a b => ⟨fun h => if_pos h, fun ha hb => if_neg (not_or.2 ⟨ha, hb⟩), gmul_eq_slowmul a b⟩

/-- Settles O9, each law by its own lemma. -/
theorem fieldLawsHold : Obligations.FieldLawsHold := fun a b c =>
  ⟨BitVec.xor_self, gmul_gadd a b c, gmul_eq_slowmul a b, gdiv_gmul_cancel a, gpow_three a, gmul_comm a b,
    BitVec.xor_comm a b, gmul_assoc a b c, BitVec.xor_assoc a b c, one_gmul a, gmul_gpow_254⟩

/-- Settles O12; the result is 0 only for a zero operand because the field has no zero divisors. -/
theorem gmulWritesTheProduct : Obligations.GmulWritesTheProduct := by
  intro d a b s
  refine ⟨decodeWord_gmul d a b, exec_eq_of_finishScalar rfl, fun ht => ?_⟩
  rw [ht]
  refine ⟨gmul_eq_zero_iff _ _, fun ha => ?_, fun hb => ?_⟩
  · rw [ha, one_gmul]
  · rw [hb, gmul_one]

/-- Settles O13; table and reference multiplication agree. -/
theorem gmulrWritesTheReferenceProduct : Obligations.GmulrWritesTheReferenceProduct := by
  intro d a b s
  refine ⟨decodeWord_gmulr d a b, exec_eq_of_finishScalar rfl, fun ht => ?_⟩
  rw [ht, gmul_eq_slowmul]

/-- Settles O14, by the divisor. -/
theorem gdivWritesTheQuotientOrRaisesEdivz : Obligations.GdivWritesTheQuotientOrRaisesEdivz := by
  intro d a b s
  refine ⟨decodeWord_gdiv d a b, exec_gdiv_by_zero d a, fun hb => exec_eq_of_finishScalar (if_neg hb),
    fun ht hb => ?_⟩
  rw [ht]
  refine ⟨fun ha => ?_, fun hab => ?_, gdiv_gmul_cancel _ hb⟩
  · rw [ha, gdiv_zero_left]
  · rw [hab, gdiv_self hb]

/-- Settles O15; exponents of a nonzero base count modulo 255. -/
theorem gpowWritesThePower : Obligations.GpowWritesThePower := by
  intro d a n s
  refine ⟨decodeWord_gpow d a n, exec_eq_of_finishScalar rfl, fun ha => if_pos ha, fun ht ha => ?_⟩
  rw [ht]
  exact ⟨gpow_ne_zero ha _, gpow_exp_zero ha, gpow_one _ _, gpow_255 ha, gpow_add_255 _ _, gpow_254 ha⟩

/-- Settles O10: NOP's meaning is the completion alone. -/
theorem nopOnlyCompletes : Obligations.NopOnlyCompletes := ⟨rfl, fun _ => rfl⟩

/-- Settles O11; equal operands cancel. -/
theorem gaddWritesTheSum : Obligations.GaddWritesTheSum := by
  intro d a b s
  refine ⟨decodeWord_gadd d a b, exec_eq_of_finishScalar rfl, ?_⟩
  rintro rfl
  exact BitVec.xor_self

end Sys2Proof.Machine

/-! PROOFS. The statements of 42_polynomial.md: the polynomial functions (R151 to R153) and the polynomial commands
(R160 to R166). Every law is one on coefficients: a canonical polynomial is fixed by them, and its length is one more
than the last place where they differ from 0. -/

namespace Sys2Proof

/-! ## The words of the polynomial commands and their decoding (30_encoding.md R91, R97) -/

/-- A format R word by the places of its fields, E a register, is the word its fields make (30_encoding.md R91). -/
theorem wordR_reg_eq_formatR (opc : Nat) (d a b e : RegIdx) :
    Machine.wordR opc d a b e = formatR (BitVec.ofNat 8 opc) (regBits d) (regBits a) (regBits b) (regBits e) := by
  apply BitVec.eq_of_toNat_eq
  rw [formatR_toNat, Machine.wordR]
  simp only [regBits_toNat, BitVec.toNat_ofNat]
  omega

/-- Where OPC selects the operand form D, A of a command, every D and A is read back. -/
theorem decodeWord_wordR_DA {opc : Nat} {mk : RegIdx → RegIdx → Instr}
    (hrow : ∀ w, opcField w = BitVec.ofNat 8 opc → decodeWord w = decodeDA mk w) (d a : RegIdx) :
    decodeWord (Machine.wordR opc d a 0 0) = .ok (mk d a) := by
  have hword : Machine.wordR opc d a 0 0 = formatR (BitVec.ofNat 8 opc) (regBits d) (regBits a) (regBits 0) 0 :=
    wordR_eq_formatR opc d a 0
  rw [hword, hrow _ (opcField_formatR _ _ _ _ _), decodeDA, bField_formatR, eField_formatR, zField_formatR,
    dField_formatR, aField_formatR, register_regBits, register_regBits]
  rfl

theorem decodeWord_ptrim (d a : RegIdx) : decodeWord (Machine.wordR 0x20 d a 0 0) = .ok (.ptrim d a) :=
  decodeWord_wordR_DA (fun w h => by simp only [decodeWord, h]) d a

theorem decodeWord_padd (d a b : RegIdx) : decodeWord (Machine.wordR 0x21 d a b 0) = .ok (.padd d a b) :=
  decodeWord_wordR (fun w h => by simp only [decodeWord, h]) d a b

theorem decodeWord_pmul (d a b : RegIdx) : decodeWord (Machine.wordR 0x22 d a b 0) = .ok (.pmul d a b) :=
  decodeWord_wordR (fun w h => by simp only [decodeWord, h]) d a b

/-- PDIV's word names it where its destinations differ (30_encoding.md R99). -/
theorem decodeWord_pdiv {q r : RegIdx} (a b : RegIdx) (hqr : q ≠ r) :
    decodeWord (Machine.wordR 0x23 q a b r) = .ok (.pdiv q r a b) := by
  have hrow (w : Word) (h : opcField w = 0x23#8) : decodeWord w = decodeDABE .pdiv w := by
    simp only [decodeWord, h]
  rw [wordR_reg_eq_formatR, hrow _ (opcField_formatR _ _ _ _ _), decodeDABE, zField_formatR, dField_formatR,
    aField_formatR, bField_formatR, eField_formatR, register_regBits, register_regBits, register_regBits,
    register_regBits]
  exact if_neg hqr

theorem decodeWord_pmod (d a b : RegIdx) : decodeWord (Machine.wordR 0x24 d a b 0) = .ok (.pmod d a b) :=
  decodeWord_wordR (fun w h => by simp only [decodeWord, h]) d a b

theorem decodeWord_peval (d a b : RegIdx) : decodeWord (Machine.wordR 0x25 d a b 0) = .ok (.peval d a b) :=
  decodeWord_wordR (fun w h => by simp only [decodeWord, h]) d a b

theorem decodeWord_pder (d a : RegIdx) : decodeWord (Machine.wordR 0x26 d a 0 0) = .ok (.pder d a) :=
  decodeWord_wordR_DA (fun w h => by simp only [decodeWord, h]) d a

end Sys2Proof

namespace Sys2Proof.Machine

/-! ## Field addition (41_field.md R120) -/

@[simp] theorem gadd_zero (a : Byte) : gadd a 0 = a := BitVec.xor_zero

@[simp] theorem zero_gadd (a : Byte) : gadd 0 a = a := BitVec.zero_xor

theorem gadd_comm (a b : Byte) : gadd a b = gadd b a := BitVec.xor_comm a b

theorem gadd_assoc (a b c : Byte) : gadd (gadd a b) c = gadd a (gadd b c) := BitVec.xor_assoc a b c

/-- Every element is its own negative. -/
theorem gadd_eq_zero_iff (a b : Byte) : gadd a b = 0 ↔ a = b := BitVec.xor_eq_zero_iff

/-! ## Coefficients (00_scope.md R10) -/

@[simp] theorem coeff_nil (j : Nat) : coeff [] j = 0 := rfl

@[simp] theorem coeff_cons_zero (c : Byte) (p : Poly) : coeff (c :: p) 0 = c := rfl

@[simp] theorem coeff_cons_succ (c : Byte) (p : Poly) (j : Nat) : coeff (c :: p) (j + 1) = coeff p j := rfl

theorem coeff_of_length_le {p : Poly} {j : Nat} (h : p.length ≤ j) : coeff p j = 0 :=
  List.getD_eq_default _ _ h

theorem lt_length_of_coeff_ne_zero {p : Poly} {j : Nat} (h : coeff p j ≠ 0) : j < p.length :=
  Nat.lt_of_not_le fun hle => h (coeff_of_length_le hle)

/-- The leading coefficient is the last one. -/
theorem leading_eq_coeff (p : Poly) : leading p = coeff p (p.length - 1) := by
  rw [leading, coeff, List.getLastD_eq_getLast?, List.getLast?_eq_getElem?, List.getD_eq_getElem?_getD]

/-! ## Trimming by coefficients (42_polynomial.md R150) -/

/-- Trimming changes no coefficient: those it drops are 0. -/
@[simp] theorem coeff_canon (l : Poly) (j : Nat) : coeff (canon l) j = coeff l j := by
  obtain ⟨k, hk⟩ := eq_canon_append_zeros l
  obtain hlt | hle := Nat.lt_or_ge j (canon l).length
  · conv_rhs => rw [hk, coeff, List.getD_append _ _ _ _ hlt]
    rfl
  · conv_rhs => rw [hk, coeff, List.getD_append_right _ _ _ _ hle]
    rw [coeff_of_length_le hle]
    exact (List.getElem?_getD_replicate_default_eq _ _ _).symm

/-- A nonzero canonical polynomial has a nonzero leading coefficient (42_polynomial.md R150). -/
theorem leading_ne_zero {p : Poly} (hc : Canonical p) (hne : p ≠ []) : leading p ≠ 0 := by
  rw [← hc] at hne ⊢
  refine canon_getLast?_ne_zero p _ ?_
  rw [leading, List.getLastD_eq_getLast?, List.getLast?_eq_some_getLast hne]
  rfl

/-- A trimmed list ends below n exactly when every coefficient from n up is 0. -/
theorem canon_length_le_iff (l : Poly) (n : Nat) : (canon l).length ≤ n ↔ ∀ j, n ≤ j → coeff l j = 0 := by
  refine ⟨fun h j hj => ?_, fun h => ?_⟩
  · rw [← coeff_canon, coeff_of_length_le (h.trans hj)]
  · by_contra! hlt
    have hne : canon l ≠ [] := List.length_pos_iff.1 (Nat.zero_lt_of_lt hlt)
    apply leading_ne_zero (canon_canon l) hne
    rw [leading_eq_coeff, coeff_canon, h _ (Nat.le_sub_one_of_lt hlt)]

/-- Lists trim to the same polynomial exactly when their coefficients agree. -/
theorem canon_eq_canon_iff (a b : Poly) : canon a = canon b ↔ ∀ j, coeff a j = coeff b j := by
  refine ⟨fun h j => ?_, fun h => ?_⟩
  · rw [← coeff_canon a, h, coeff_canon]
  · have hlen : (canon a).length = (canon b).length := eq_of_forall_ge_iff fun n => by
      simp only [canon_length_le_iff, h]
    refine List.ext_getElem hlen fun j ha hb => ?_
    have hj := h j
    rw [← coeff_canon a, ← coeff_canon b, coeff_eq_dite, coeff_eq_dite, dif_pos ha, dif_pos hb] at hj
    exact hj

/-- A list trims to the zero polynomial exactly when every coefficient is 0. -/
theorem canon_eq_nil_iff (l : Poly) : canon l = [] ↔ ∀ j, coeff l j = 0 :=
  canon_eq_canon_iff l []

/-! ## Addition (42_polynomial.md R151) -/

@[simp] theorem sumRaw_nil_right (a : Poly) : sumRaw a [] = a := by
  cases a <;> rfl

@[simp] theorem coeff_sumRaw (a b : Poly) (j : Nat) : coeff (sumRaw a b) j = gadd (coeff a j) (coeff b j) := by
  induction a generalizing b j with
  | nil => rw [sumRaw, coeff_nil, zero_gadd]
  | cons x xs ih =>
    cases b with
    | nil => rw [sumRaw_nil_right, coeff_nil, gadd_zero]
    | cons y ys =>
      cases j with
      | zero => rfl
      | succ j => exact ih ys j

@[simp] theorem coeff_padd (a b : Poly) (j : Nat) : coeff (padd a b) j = gadd (coeff a j) (coeff b j) := by
  rw [padd, coeff_canon, coeff_sumRaw]

@[simp] theorem canon_padd (a b : Poly) : canon (padd a b) = padd a b := canon_canon _

theorem padd_length_le (a b : Poly) : (padd a b).length ≤ max a.length b.length :=
  (canon_length_le _).trans_eq (sumRaw_length a b)

/-- The sum ends below the longer operand exactly when its coefficient at that operand's top place is 0. -/
theorem padd_length_lt_iff_coeff {a b : Poly} (h : 0 < max a.length b.length) :
    (padd a b).length < max a.length b.length ↔ coeff (padd a b) (max a.length b.length - 1) = 0 := by
  rw [Nat.lt_iff_le_pred h, padd, canon_length_le_iff, coeff_canon]
  refine ⟨fun hz => hz _ le_rfl, fun hz j hj => ?_⟩
  obtain rfl | hlt := hj.eq_or_lt
  · exact hz
  · exact coeff_of_length_le (by rw [sumRaw_length]; omega)

theorem padd_comm (a b : Poly) : padd a b = padd b a := by
  simp only [padd, canon_eq_canon_iff, coeff_sumRaw, gadd_comm, implies_true]

/-- No coefficient of a shorter operand reaches the top of the longer one. -/
theorem padd_length_of_lt {a b : Poly} (hb : Canonical b) (h : a.length < b.length) :
    (padd a b).length = b.length := by
  have hb0 : leading b ≠ 0 := leading_ne_zero hb (List.length_pos_iff.1 (Nat.zero_lt_of_lt h))
  have htop : b.length - 1 < (padd a b).length := lt_length_of_coeff_ne_zero (by
    rwa [coeff_padd, coeff_of_length_le (Nat.le_sub_one_of_lt h), zero_gadd, ← leading_eq_coeff])
  have hle := padd_length_le a b
  omega

/-- On canonical operands the sum is shorter than the longer one exactly when the top coefficients cancel. -/
theorem padd_length_lt_iff {a b : Poly} (ha : Canonical a) (hb : Canonical b) :
    (padd a b).length < max a.length b.length ↔ a.length = b.length ∧ 0 < a.length ∧ leading a = leading b := by
  obtain hlt | heq | hgt := Nat.lt_trichotomy a.length b.length
  · rw [padd_length_of_lt hb hlt]
    omega
  · obtain h0 | hpos := Nat.eq_zero_or_pos a.length
    · simp [← heq, h0]
    · rw [padd_length_lt_iff_coeff (by omega), ← heq, max_self, coeff_padd, gadd_eq_zero_iff, leading_eq_coeff,
        leading_eq_coeff, ← heq]
      exact ⟨fun h => ⟨rfl, hpos, h⟩, fun h => h.2.2⟩
  · rw [padd_comm, padd_length_of_lt ha hgt]
    omega

/-- Only equal polynomials have the sum 0. -/
theorem padd_eq_nil_iff {a b : Poly} (ha : Canonical a) (hb : Canonical b) : padd a b = [] ↔ a = b := by
  conv_rhs => rw [← ha, ← hb]
  simp only [padd, canon_eq_nil_iff, canon_eq_canon_iff, coeff_sumRaw, gadd_eq_zero_iff]

theorem padd_nil {a : Poly} (ha : Canonical a) : padd a [] = a := by
  rw [padd, sumRaw_nil_right, ha]

/-! ## Sums over the field -/

@[simp] theorem fieldSum_cons (x : Byte) (l : List Byte) : fieldSum (x :: l) = gadd x (fieldSum l) := rfl

theorem fieldSum_map_eq_zero {f : Nat → Byte} (hf : ∀ j, f j = 0) (l : List Nat) : fieldSum (l.map f) = 0 := by
  induction l with
  | nil => rfl
  | cons j l ih => rw [List.map_cons, fieldSum_cons, hf, ih, gadd_zero]

/-- The first term of a sum over 0..n taken apart from the others. -/
theorem fieldSum_range_succ (f : Nat → Byte) (n : Nat) :
    fieldSum ((List.range (n + 1)).map f) = gadd (f 0) (fieldSum ((List.range n).map fun j => f (j + 1))) := by
  rw [List.range_succ_eq_map, List.map_cons, List.map_map, fieldSum_cons]
  rfl

theorem gadd_gmul (a b c : Byte) :
    gmul builtTables (gadd a b) c = gadd (gmul builtTables a c) (gmul builtTables b c) := by
  simp only [gmul_comm _ c, gmul_gadd]

/-- A common factor moves into a sum. -/
theorem fieldSum_gmul (l : List Byte) (x : Byte) :
    gmul builtTables (fieldSum l) x = fieldSum (l.map (gmul builtTables · x)) := by
  induction l with
  | nil => exact gmul_zero_left _ x
  | cons y ys ih => rw [fieldSum_cons, gadd_gmul, ih, List.map_cons, fieldSum_cons]

/-! ## Multiplication (42_polynomial.md R152) -/

/-- A row of the product, coefficient by coefficient. -/
theorem coeff_map_gmul (t : Tables) (x : Byte) (b : Poly) (i : Nat) :
    coeff (b.map (gmul t x)) i = gmul t x (coeff b i) := by
  rw [coeff, ← gmul_zero_right t x, List.getD_map, coeff]

theorem coeff_convolve_cons_zero (t : Tables) (x : Byte) (xs b : Poly) :
    coeff (convolve t (x :: xs) b) 0 = gmul t x (coeff b 0) := by
  rw [convolve, coeff_sumRaw, coeff_map_gmul, coeff_cons_zero, gadd_zero]

theorem coeff_convolve_cons_succ (t : Tables) (x : Byte) (xs b : Poly) (i : Nat) :
    coeff (convolve t (x :: xs) b) (i + 1) = gadd (gmul t x (coeff b (i + 1))) (coeff (convolve t xs b) i) := by
  rw [convolve, coeff_sumRaw, coeff_map_gmul, coeff_cons_succ]

/-- Coefficient i of the convolution is the sum of the products `a[j] · b[i-j]`, on any tables. -/
theorem coeff_convolve (t : Tables) (a b : Poly) (i : Nat) :
    coeff (convolve t a b) i = fieldSum ((List.range (i + 1)).map fun j => gmul t (coeff a j) (coeff b (i - j))) := by
  induction a generalizing i with
  | nil => exact (fieldSum_map_eq_zero (fun _ => gmul_zero_left t _) _).symm
  | cons x xs ih =>
    rw [fieldSum_range_succ]
    cases i with
    | zero => exact (coeff_convolve_cons_zero t x xs b).trans (gadd_zero _).symm
    | succ i =>
      rw [coeff_convolve_cons_succ, ih]
      simp only [coeff_cons_zero, coeff_cons_succ, Nat.sub_zero, Nat.add_sub_add_right]

/-- The product is the trimmed convolution, for zero operands too: a convolution with [] has zero coefficients only. -/
theorem pmul_eq_canon_convolve (t : Tables) (a b : Poly) : pmul t a b = canon (convolve t a b) := by
  unfold pmul
  split
  case isFalse => rfl
  case isTrue h =>
    symm
    rw [canon_eq_nil_iff]
    intro i
    rw [coeff_convolve]
    refine fieldSum_map_eq_zero (fun j => ?_) _
    obtain ha | hb := h
    · rw [List.length_eq_zero_iff.1 ha, coeff_nil, gmul_zero_left]
    · rw [List.length_eq_zero_iff.1 hb, coeff_nil, gmul_zero_right]

/-- Coefficient i of the product is the sum of the products `a[j] · b[i-j]`, on any tables. -/
theorem coeff_pmul (t : Tables) (a b : Poly) (i : Nat) :
    coeff (pmul t a b) i = fieldSum ((List.range (i + 1)).map fun j => gmul t (coeff a j) (coeff b (i - j))) := by
  rw [pmul_eq_canon_convolve, coeff_canon, coeff_convolve]

theorem pmul_of_eq_nil (t : Tables) {a b : Poly} (h : a = [] ∨ b = []) : pmul t a b = [] :=
  if_pos (h.imp List.length_eq_zero_iff.2 List.length_eq_zero_iff.2)

/-- The top coefficient of the convolution is the product of the leading ones: every other row ends below it. -/
theorem coeff_convolve_top (t : Tables) (x : Byte) (xs b : Poly) :
    coeff (convolve t (x :: xs) b) (xs.length + (b.length - 1)) = gmul t (leading (x :: xs)) (leading b) := by
  induction xs generalizing x with
  | nil =>
    rw [convolve, coeff_sumRaw, coeff_map_gmul, leading_eq_coeff b, List.length_nil, Nat.zero_add, convolve]
    cases b.length - 1 with
    | zero => exact gadd_zero _
    | succ k => exact gadd_zero _
  | cons y ys ih =>
    rw [List.length_cons, Nat.add_right_comm, coeff_convolve_cons_succ, ih, coeff_of_length_le (p := b) (by omega),
      gmul_zero_right, zero_gadd]
    rfl

theorem coeff_pmul_top (t : Tables) {a b : Poly} (ha : a ≠ []) (hb : b ≠ []) :
    coeff (pmul t a b) (a.length + b.length - 1 - 1) = gmul t (leading a) (leading b) := by
  have hpos : 0 < b.length := List.length_pos_iff.2 hb
  obtain ⟨x, xs, rfl⟩ := List.exists_cons_of_ne_nil ha
  rw [pmul_eq_canon_convolve, coeff_canon, ← coeff_convolve_top]
  congr 1
  rw [List.length_cons]
  omega

/-- Leading coefficients never multiply to 0, so a product of nonzero polynomials has its full length. -/
theorem pmul_length {a b : Poly} (ha : Canonical a) (hb : Canonical b) (hane : a ≠ []) (hbne : b ≠ []) :
    (pmul builtTables a b).length = a.length + b.length - 1 := by
  have htop : coeff (pmul builtTables a b) (a.length + b.length - 1 - 1) ≠ 0 := by
    rw [coeff_pmul_top _ hane hbne, Ne, gmul_eq_zero_iff, not_or]
    exact ⟨leading_ne_zero ha hane, leading_ne_zero hb hbne⟩
  have hlt := lt_length_of_coeff_ne_zero htop
  have hle := pmul_length_le builtTables a b
  omega

theorem leading_pmul {a b : Poly} (ha : Canonical a) (hb : Canonical b) (hane : a ≠ []) (hbne : b ≠ []) :
    leading (pmul builtTables a b) = gmul builtTables (leading a) (leading b) := by
  rw [leading_eq_coeff, pmul_length ha hb hane hbne, coeff_pmul_top _ hane hbne]

/-- There are no zero divisors. -/
theorem pmul_eq_nil_iff {a b : Poly} (ha : Canonical a) (hb : Canonical b) :
    pmul builtTables a b = [] ↔ a = [] ∨ b = [] := by
  refine ⟨fun h => ?_, pmul_of_eq_nil _⟩
  by_contra! hne
  obtain ⟨hane, hbne⟩ := hne
  have hlen := pmul_length ha hb hane hbne
  have hpos := List.length_pos_iff.2 hane
  have hpos' := List.length_pos_iff.2 hbne
  rw [h, List.length_nil] at hlen
  omega

/-! ## Evaluation (42_polynomial.md R153) -/

/-- Horner's scheme on the built tables (90_conflicts.md C1). -/
def horner (x : Byte) (p : Poly) : Byte := p.foldr (fun c acc => gadd c (gmul builtTables acc x)) 0

@[simp] theorem horner_nil (x : Byte) : horner x [] = 0 := rfl

@[simp] theorem horner_cons (x c : Byte) (cs : Poly) :
    horner x (c :: cs) = gadd c (gmul builtTables (horner x cs) x) := rfl

/-- The loop adds to its sum what Horner's scheme gives for the coefficients still to come, at the running power. -/
theorem pevalLoop_eq_horner (x pw acc : Byte) (p : Poly) :
    pevalLoop builtTables x p pw acc = gadd acc (gmul builtTables pw (horner x p)) := by
  induction p generalizing pw acc with
  | nil => rw [horner_nil, gmul_zero_right, gadd_zero, pevalLoop]
  | cons c cs ih =>
    rw [pevalLoop, ih, horner_cons, gmul_gadd, gadd_assoc, gmul_comm c pw, gmul_assoc, gmul_comm x]

theorem peval_eq_horner (p : Poly) (x : Byte) : peval builtTables p x = horner x p := by
  rw [peval, pevalLoop_eq_horner, zero_gadd, one_gmul]

/-- The value at 0 is the constant term, 0^0 being 1 (90_conflicts.md C3). -/
theorem peval_at_zero (p : Poly) : peval builtTables p 0 = coeff p 0 := by
  rw [peval_eq_horner]
  cases p with
  | nil => rfl
  | cons c cs => rw [horner_cons, gmul_zero_right, gadd_zero, coeff_cons_zero]

/-- The next power of a nonzero element. -/
theorem gpow_succ {x : Byte} (hx : x ≠ 0) (n : Nat) :
    gpow builtTables x (n + 1) = gmul builtTables (gpow builtTables x n) x := by
  obtain ⟨i, rfl⟩ := (ne_zero_iff_genPow x).1 hx
  rw [gpow_genPow, gpow_genPow, gmul_genPow, Nat.mul_succ]

/-- At a nonzero element Horner's scheme is the sum of the coefficients times the powers. -/
theorem horner_eq_fieldSum {x : Byte} (hx : x ≠ 0) (p : Poly) :
    horner x p = fieldSum ((List.range p.length).map fun i => gmul builtTables (coeff p i) (gpow builtTables x i)) := by
  induction p with
  | nil => rfl
  | cons c cs ih =>
    rw [horner_cons, ih, fieldSum_gmul, List.map_map, List.length_cons, fieldSum_range_succ, gpow_exp_zero hx, gmul_one]
    simp only [Function.comp_def, coeff_cons_zero, coeff_cons_succ, gpow_succ hx, gmul_assoc]

/-! ## Division (42_polynomial.md R155) -/

/-- A dividend shorter than the divisor is left as it is, with no pass. -/
theorem pdivLoop_of_lt (t : Tables) {b : Poly} (c : Byte) (fuel : Nat) (q : Poly) {r : Poly}
    (h : r.length < b.length) : pdivLoop t b c fuel q r = (q, r) := by
  cases fuel with
  | zero => rfl
  | succ fuel => exact if_neg (Nat.not_le.2 h)

/-- Multiplication undoes division. -/
theorem gmul_gdiv_cancel (a : Byte) {b : Byte} (hb : b ≠ 0) :
    gmul builtTables (gdiv builtTables a b) b = a := by
  have ha : gmul builtTables (gmul builtTables a (gpow builtTables b 254)) b = a := by
    rw [gmul_assoc, gmul_comm _ b, gmul_gpow_254 hb, gmul_one]
  conv_lhs => rw [← ha, gdiv_gmul_cancel _ hb]
  exact ha

theorem gdiv_ne_zero {a b : Byte} (ha : a ≠ 0) (hb : b ≠ 0) : gdiv builtTables a b ≠ 0 := fun h =>
  ha (by rw [← gmul_gdiv_cancel a hb, h, gmul_zero_left])

@[simp] theorem monomial_length (k : Nat) (v : Byte) : (monomial k v).length = k + 1 := by
  rw [monomial, List.length_append, List.length_replicate, List.length_singleton]

@[simp] theorem leading_monomial (k : Nat) (v : Byte) : leading (monomial k v) = v := by
  rw [leading, monomial, List.getLastD_concat]

theorem monomial_ne_nil (k : Nat) (v : Byte) : monomial k v ≠ [] :=
  List.append_ne_nil_of_right_ne_nil _ (List.cons_ne_nil v [])

/-- A monomial with a nonzero coefficient is canonical. -/
theorem canon_monomial (k : Nat) {v : Byte} (hv : v ≠ 0) : canon (monomial k v) = monomial k v :=
  List.rdropWhile_concat_neg _ _ _ (by simpa using hv)

/-- The multiple of the divisor b that a pass of Euclidean division subtracts from the remainder r. -/
def pdivTerm (r b : Poly) : Poly :=
  pmul builtTables (monomial (r.length - b.length) (gdiv builtTables (leading r) (leading b))) b

theorem canon_pdivTerm (r b : Poly) : canon (pdivTerm r b) = pdivTerm r b := canon_pmul _ _ _

/-- A pass of Euclidean division cancels the leading coefficient of the remainder, so the remainder gets shorter. -/
theorem padd_pdivTerm_length_lt {r b : Poly} (hr : Canonical r) (hb : Canonical b) (hne : b ≠ [])
    (hle : b.length ≤ r.length) : (padd r (pdivTerm r b)).length < r.length := by
  have hpos : 0 < b.length := List.length_pos_iff.2 hne
  have hlb : leading b ≠ 0 := leading_ne_zero hb hne
  have hlr : leading r ≠ 0 := leading_ne_zero hr (List.length_pos_iff.1 (hpos.trans_le hle))
  have hmono : Canonical (monomial (r.length - b.length) (gdiv builtTables (leading r) (leading b))) :=
    canon_monomial _ (gdiv_ne_zero hlr hlb)
  have hlen : (pdivTerm r b).length = r.length := by
    rw [pdivTerm, pmul_length hmono hb (monomial_ne_nil _ _) hne, monomial_length]
    omega
  have hlead : leading (pdivTerm r b) = leading r := by
    rw [pdivTerm, leading_pmul hmono hb (monomial_ne_nil _ _) hne, leading_monomial, gmul_gdiv_cancel _ hlb]
  have hlt := (padd_length_lt_iff hr (canon_pdivTerm r b)).2 ⟨hlen.symm, hpos.trans_le hle, hlead.symm⟩
  rwa [hlen, max_self] at hlt

/-- As many passes as the remainder has coefficients leave one shorter than the divisor. -/
theorem pdivLoop_remainder_length_lt {b : Poly} (hb : Canonical b) (hne : b ≠ []) (fuel : Nat) (q r : Poly)
    (hr : Canonical r) (hfuel : r.length ≤ fuel) :
    (pdivLoop builtTables b (leading b) fuel q r).2.length < b.length := by
  induction fuel generalizing q r with
  | zero => exact hfuel.trans_lt (List.length_pos_iff.2 hne)
  | succ fuel ih =>
    obtain hlt | hle := Nat.lt_or_ge r.length b.length
    · rwa [pdivLoop_of_lt _ _ _ _ hlt]
    · rw [pdivLoop, if_pos hle]
      refine ih _ _ (canon_padd _ _) ?_
      exact Nat.le_of_lt_succ ((padd_pdivTerm_length_lt hr hb hne hle).trans_le hfuel)

/-- The remainder has a lower degree than the divisor (42_polynomial.md R155). -/
theorem pdivmod_remainder_length_lt {a b : Poly} (ha : Canonical a) (hb : Canonical b) (hne : b ≠ []) :
    (pdivmod builtTables a b).2.length < b.length :=
  pdivLoop_remainder_length_lt hb hne _ _ _ ha le_rfl

/-! ## The derivative (42_polynomial.md R154) -/

theorem coeff_pder (p : Poly) (j : Nat) : coeff (pder p) j = if (j + 1) % 2 = 1 then coeff p (j + 1) else 0 := by
  rw [pder, coeff_canon]
  obtain hlt | hle := Nat.lt_or_ge j (p.length - 1)
  · rw [coeff_eq_dite, dif_pos (by rwa [List.length_map, List.length_range]), List.getElem_map, List.getElem_range]
  · rw [coeff_of_length_le (p := p) (by omega), ite_self]
    exact coeff_of_length_le (by rwa [List.length_map, List.length_range])

@[simp] theorem canon_pder (p : Poly) : canon (pder p) = pder p := canon_canon _

/-- The derivative is zero exactly when no odd power has a coefficient. -/
theorem pder_eq_nil_iff (p : Poly) : pder p = [] ↔ ∀ j, j % 2 = 1 → coeff p j = 0 := by
  rw [← canon_pder, canon_eq_nil_iff]
  simp only [coeff_pder]
  refine ⟨fun h j hj => ?_, fun h j => ?_⟩
  · obtain ⟨k, rfl⟩ := Nat.exists_eq_succ_of_ne_zero (n := j) (by rintro rfl; cases hj)
    exact (if_pos hj).symm.trans (h k)
  · split
    · exact h _ ‹_›
    · rfl

/-! ## The commands (42_polynomial.md R160 to R166): the end state of each, whole -/

/-- A command whose outcome is the end of a polynomial result answers the state with that result. -/
theorem exec_eq_of_finishPoly {i : Instr} {s : State} {d : RegIdx} {p : Poly}
    (h : exec i s = .next (s.finishPoly d p)) :
    exec i s = .next { s with
      pregs := s.pregs.set d (PolyReg.ofPoly p)
      status := { s.status with zero := p.length == 0, done := true }
      phase := .idle } :=
  h.trans (congrArg _ (s.finishPoly_eq d p))

/-- A register of one coefficient, 0, has the value []. -/
theorem PolyReg.value_of_len_one {r : PolyReg} (hlen : r.len = 1) (hcell : r.cells[0] = 0) : r.value = [] := by
  have hsame : r.value = (PolyReg.ofPoly [0]).value := PolyReg.value_congr hlen fun j hj => by
    have hj0 : j = 0 := Fin.ext (Nat.lt_one_iff.1 (by rwa [hlen] at hj))
    rw [hj0]
    exact hcell.trans (PolyReg.ofPoly_cell [0] 0 (by decide)).symm
  rw [hsame, PolyReg.value_ofPoly [0] (by decide)]
  rfl

/-! ## The obligations -/

/-- Settles O16: a copy of a value is an engine write of it. -/
theorem ptrimWritesTheTrimmedCopy : Obligations.PtrimWritesTheTrimmedCopy :=
  fun d a _ => ⟨decodeWord_ptrim d a, exec_eq_of_finishPoly rfl, PolyReg.value_of_len_one⟩

/-- Settles O17; only equal polynomials cancel. -/
theorem paddWritesTheSum : Obligations.PaddWritesTheSum := by
  intro d a b s
  obtain ⟨ha, -⟩ := storable_poly s a
  obtain ⟨hb, -⟩ := storable_poly s b
  refine ⟨decodeWord_padd d a b, exec_eq_of_finishPoly rfl, ?_, fun h => ?_⟩
  · rw [List.length_eq_zero_iff]
    exact padd_eq_nil_iff ha hb
  · rw [h]
    exact padd_nil ha

/-- Settles O18, by the capacity test; a product of nonzero polynomials is nonzero. -/
theorem pmulWritesTheProductOrRaisesEcap : Obligations.PmulWritesTheProductOrRaisesEcap := by
  rintro d a b s _ _ rfl rfl
  refine ⟨decodeWord_pmul d a b, fun h => ?_, fun h => ?_, fun ht => ?_⟩
  · rw [wordR_eq_formatR]
    exact exec_of_commandError (.pmul d a b) s 0x04 (if_pos h)
  · exact exec_eq_of_finishPoly (exec_pmul_of_noError (if_neg h)).2
  · rw [ht, List.length_eq_zero_iff]
    exact pmul_eq_nil_iff (storable_poly s a).1 (storable_poly s b).1

/-- Settles O19, by the divisor; the remainder by a constant is shorter than one coefficient. -/
theorem pdivWritesQuotientAndRemainderOrRaisesEpdivz :
    Obligations.PdivWritesQuotientAndRemainderOrRaisesEpdivz := by
  rintro q r a b s _ _ hqr rfl rfl
  refine ⟨decodeWord_pdiv a b hqr, fun h => ?_, fun h => (exec_pdiv_of_noError (if_neg h)).2,
    fun _ hlt => pdivLoop_of_lt _ _ _ _ hlt, fun ht hone => ?_⟩
  · rw [wordR_reg_eq_formatR]
    exact exec_of_commandError (.pdiv q r a b) s 0x03 (if_pos h)
  · have hne : s.poly b ≠ [] := List.length_pos_iff.1 (hone ▸ Nat.zero_lt_one)
    have hlt := pdivmod_remainder_length_lt (storable_poly s a).1 (storable_poly s b).1 hne
    rw [ht, ← List.length_eq_zero_iff, ← Nat.lt_one_iff, ← hone]
    exact hlt

/-- Settles O20, by the divisor. -/
theorem pmodWritesTheRemainderOrRaisesEpdivz : Obligations.PmodWritesTheRemainderOrRaisesEpdivz := by
  rintro d a b s _ _ rfl rfl
  refine ⟨decodeWord_pmod d a b, fun h => ?_, fun h => exec_eq_of_finishPoly (exec_pmod_of_noError (if_neg h)).2⟩
  rw [wordR_eq_formatR]
  exact exec_of_commandError (.pmod d a b) s 0x03 (if_pos h)

/-- Settles O21; the running power is 1 at the constant term, whatever the point. -/
theorem pevalWritesTheValue : Obligations.PevalWritesTheValue := by
  rintro d a b s _ rfl
  refine ⟨decodeWord_peval d a b, exec_eq_of_finishScalar rfl, fun hp => ?_, fun ht hx => ?_⟩
  · rw [hp]
    rfl
  · rw [ht, hx]
    exact peval_at_zero _

/-- Settles O22; a constant has no odd power. -/
theorem pderWritesTheDerivative : Obligations.PderWritesTheDerivative := by
  rintro d a s _ rfl
  refine ⟨decodeWord_pder d a, exec_eq_of_finishPoly rfl, fun hlen => ?_, (pder_eq_nil_iff _).2⟩
  exact (pder_eq_nil_iff _).2 fun j hj => coeff_of_length_le (by omega)

/-- Settles O51: the coefficients add, and the length is read off the top one. -/
theorem paddAddsCoefficients : Obligations.PaddAddsCoefficients := fun a b ha hb =>
  ⟨canon_padd a b, coeff_padd a b, padd_length_le a b, padd_length_lt_iff ha hb⟩

/-- Settles O52: the rows of the product add up to the convolution, and its top coefficient is not 0. -/
theorem pmulConvolves : Obligations.PmulConvolves := fun a b ha hb =>
  ⟨pmul_of_eq_nil _, pmul_length ha hb, coeff_pmul _ a b⟩

/-- Settles O53: the loop is Horner's scheme, and that is the sum of the terms. -/
theorem pevalIsHorner : Obligations.PevalIsHorner := fun p x =>
  ⟨peval_eq_horner p x, rfl, peval_at_zero p, fun hx => (peval_eq_horner p x).trans (horner_eq_fieldSum hx p)⟩

end Sys2Proof.Machine

/-! PROOFS. The statements of 43_rs_derivations.md: the derivation functions (R190, R192, R194) and the commands RSGEN,
SYND and ROOTS (R191, R193, R195). The one long way is to generator(255) = x^255 + 1: its coefficients are fixed each by
the one below it. -/

namespace Sys2Proof

/-! ## The words of the derivation commands and their decoding (30_encoding.md R91, R92, R97) -/

/-- Where OPC selects the operand form D, IMM of a command, every D and IMM is read back. -/
theorem decodeWord_wordI_DI {opc : Nat} {mk : RegIdx → BitVec 16 → Instr}
    (hrow : ∀ w, opcField w = BitVec.ofNat 8 opc → decodeWord w = decodeDI mk w) (d : RegIdx) (n : BitVec 16) :
    decodeWord (Machine.wordI opc d 0 n.toNat) = .ok (mk d n) := by
  have hword : Machine.wordI opc d 0 n.toNat = formatI (BitVec.ofNat 8 opc) (regBits d) (regBits 0) n :=
    wordI_eq_formatI opc d 0 n
  rw [hword, hrow _ (opcField_formatI _ _ _ _), decodeDI, aField_formatI, dField_formatI, immField_formatI,
    register_regBits]
  rfl

/-- Where OPC selects the operand form A of a command, every A is read back. -/
theorem decodeWord_wordR_A {opc : Nat} {mk : RegIdx → Instr}
    (hrow : ∀ w, opcField w = BitVec.ofNat 8 opc → decodeWord w = decodeA mk w) (a : RegIdx) :
    decodeWord (Machine.wordR opc 0 a 0 0) = .ok (mk a) := by
  have hword : Machine.wordR opc 0 a 0 0 = formatR (BitVec.ofNat 8 opc) (regBits 0) (regBits a) (regBits 0) 0 :=
    wordR_eq_formatR opc 0 a 0
  rw [hword, hrow _ (opcField_formatR _ _ _ _ _), decodeA, dField_formatR, bField_formatR, eField_formatR,
    zField_formatR, aField_formatR, register_regBits]
  rfl

theorem decodeWord_rsgen (d : RegIdx) (n : BitVec 16) :
    decodeWord (Machine.wordI 0x30 d 0 n.toNat) = .ok (.rsgen d n) :=
  decodeWord_wordI_DI (fun w h => by simp only [decodeWord, h]) d n

theorem decodeWord_synd (d a : RegIdx) (n : BitVec 16) :
    decodeWord (Machine.wordI 0x31 d a n.toNat) = .ok (.synd d a n) :=
  decodeWord_wordI (fun w h => by simp only [decodeWord, h]) d a n

theorem decodeWord_roots (a : RegIdx) : decodeWord (Machine.wordR 0x32 0 a 0 0) = .ok (.roots a) :=
  decodeWord_wordR_A (fun w h => by simp only [decodeWord, h]) a

end Sys2Proof

namespace Sys2Proof.Machine

/-! ## Powers of 2 -/

/-- Powers of 2 are equal exactly when their exponents agree modulo 255. -/
theorem genPow_eq_genPow_iff (i j : Nat) : genPow i = genPow j ↔ i % 255 = j % 255 := by
  refine ⟨fun h => ?_, fun h => ?_⟩
  · rw [← builtTables_logAt_genPow, h, builtTables_logAt_genPow]
  · rw [← genPow_mod, h, genPow_mod]

/-- The powers of 2 that the roots and the points of evaluation are. -/
theorem gpow_two (i : Nat) : gpow builtTables 2 i = genPow i := by
  rw [show (2 : Byte) = genPow 1 from rfl, gpow_genPow, Nat.one_mul]

/-! ## Multiplication by a linear factor -/

/-- Equal first terms of two sums cancel. -/
theorem gadd_gadd_gadd_cancel_left (a b c : Byte) : gadd (gadd a b) (gadd a c) = gadd b c := by
  rw [gadd_comm a b, gadd_assoc, ← gadd_assoc a a c, (gadd_eq_zero_iff a a).2 rfl, zero_gadd]

/-- Multiplying by `x + u` adds u times each coefficient to the coefficient below it. -/
theorem coeff_pmul_linear (a : Poly) (u : Byte) (j : Nat) :
    coeff (pmul builtTables a [u, 1]) j = gadd (gmul builtTables u (coeff a j)) (coeff (0 :: a) j) := by
  rw [pmul_eq_canon_convolve, coeff_canon]
  induction a generalizing j with
  | nil => cases j <;> rw [coeff_nil, gmul_zero_right, zero_gadd] <;> rfl
  | cons x xs ih =>
    cases j with
    | zero => rw [coeff_convolve_cons_zero, gmul_comm]; exact (gadd_zero _).symm
    | succ j =>
      rw [coeff_convolve_cons_succ, ih]
      cases j with
      | zero => simp only [coeff_cons_succ, coeff_cons_zero, gmul_one, gadd_zero, gadd_comm x]
      | succ j => simp only [coeff_cons_succ, coeff_nil, gmul_zero_right, zero_gadd]

/-! ## The coefficients of a generator polynomial on the built tables (43_rs_derivations.md R190) -/

/-- The next factor is `x + 2^(n+1)`. -/
theorem coeff_generator_succ (n j : Nat) :
    coeff (generator builtTables (n + 1)) j =
      gadd (gmul builtTables (genPow (n + 1)) (coeff (generator builtTables n) j))
        (coeff (0 :: generator builtTables n) j) := by
  rw [generator, Config.gen, gpow_two, coeff_pmul_linear]

/-- A generator polynomial has no coefficient above its degree. -/
theorem coeff_generator_of_lt (t : Tables) {n j : Nat} (h : n < j) : coeff (generator t n) j = 0 :=
  coeff_of_length_le ((generator_length_le t n).trans h)

/-- A generator polynomial is monic. -/
theorem coeff_generator_top (n : Nat) : coeff (generator builtTables n) n = 1 := by
  induction n with
  | zero => rfl
  | succ n ih =>
    rw [coeff_generator_succ, coeff_generator_of_lt _ n.lt_succ_self, gmul_zero_right, zero_gadd, coeff_cons_succ, ih]

/-- The constant term of a generator polynomial is the product of its roots, `2^(1 + .. + n)`. -/
theorem coeff_generator_zero (n : Nat) :
    coeff (generator builtTables n) 0 = genPow (∑ i ∈ Finset.range (n + 1), i) := by
  induction n with
  | zero => rfl
  | succ n ih =>
    rw [coeff_generator_succ, ih, gmul_genPow, coeff_cons_zero, gadd_zero, Finset.sum_range_succ _ (n + 1), Nat.add_comm]

/-! ## Neighbouring coefficients of a generator polynomial

The scaling x ↦ 2x takes the roots 2^1..2^n of generator(n) to 2^0..2^(n-1), so generator(n) at 2x, times x + 2^n, is
2^n times generator(n) times x + 1. Compared coefficient by coefficient, and times 2, this
fixes each coefficient by the one below. -/

/-- `(2^j + 2^(n+1)) · prev = 2^(n+1) · (2^j + 1) · cur`: the relation of the coefficients j - 1 and j of
generator(n). -/
def CoeffRatio (n j : Nat) (prev cur : Byte) : Prop :=
  gmul builtTables (gadd (genPow j) (genPow (n + 1))) prev =
    gmul builtTables (gadd (genPow (n + 1 + j)) (genPow (n + 1))) cur

/-- Below the constant term there is 0. -/
theorem coeffRatio_zero (n : Nat) (cur : Byte) : CoeffRatio n 0 0 cur := by
  rw [CoeffRatio, gmul_zero_right, Nat.add_zero, (gadd_eq_zero_iff _ _).2 rfl, gmul_zero_left]

/-- One more factor, `x + 2^(n+1)`, keeps the relation. -/
theorem CoeffRatio.succ {n j : Nat} {p c d : Byte} (hpc : CoeffRatio n j p c) (hcd : CoeffRatio n (j + 1) c d) :
    CoeffRatio (n + 1) (j + 1) (gadd (gmul builtTables (genPow (n + 1)) c) p)
      (gadd (gmul builtTables (genPow (n + 1)) d) c) := by
  have hpc' := congrArg (gmul builtTables (genPow 1)) hpc
  have hcd' := congrArg (gmul builtTables (genPow (n + 1 + 1))) hcd
  unfold CoeffRatio
  simp only [gadd_gmul, gmul_gadd, ← gmul_assoc, gmul_genPow, Nat.add_comm, Nat.add_left_comm] at hpc' hcd' ⊢
  rw [hpc', ← hcd', gadd_gadd_gadd_cancel_left, gadd_gadd_gadd_cancel_left]

/-- Every two neighbouring coefficients of a generator polynomial stand in the relation. -/
theorem coeff_generator_ratio (n j : Nat) :
    CoeffRatio n j (coeff (0 :: generator builtTables n) j) (coeff (generator builtTables n) j) := by
  induction n generalizing j with
  | zero =>
    match j with
    | 0 => exact coeffRatio_zero 0 _
    | 1 =>
      show CoeffRatio 0 1 1 0
      rw [CoeffRatio, (gadd_eq_zero_iff (genPow 1) _).2 rfl, gmul_zero_left, gmul_zero_right]
    | j + 2 => exact (gmul_zero_right _ _).trans (gmul_zero_right _ _).symm
  | succ n ih =>
    cases j with
    | zero => exact coeffRatio_zero _ _
    | succ j =>
      rw [coeff_cons_succ, coeff_generator_succ, coeff_generator_succ]
      exact (ih j).succ (ih (j + 1))

/-! ## The generator polynomial of degree 255 (43_rs_derivations.md R191) -/

theorem coeff_monomial (k : Nat) (v : Byte) (j : Nat) : coeff (monomial k v) j = if j = k then v else 0 := by
  induction k generalizing j with
  | zero => cases j <;> rfl
  | succ k ih =>
    cases j with
    | zero => rfl
    | succ j => rw [monomial, List.replicate_succ, List.cons_append, coeff_cons_succ, ← monomial, ih]; simp only [Nat.add_right_cancel_iff]

/-- Between its constant term and its top, generator(255) has no coefficient: 2^256 is 2^1, so the coefficient below
counts for nothing at x^1, and from there on it is 0. -/
theorem coeff_generator_255_middle {j : Nat} (h : j < 254) : coeff (generator builtTables 255) (j + 1) = 0 := by
  have hratio := coeff_generator_ratio 255 (j + 1)
  have hprev : gmul builtTables (gadd (genPow (j + 1)) (genPow (255 + 1)))
      (coeff (0 :: generator builtTables 255) (j + 1)) = 0 := by
    cases j with
    | zero => rw [(gadd_eq_zero_iff _ _).2 ((genPow_eq_genPow_iff (0 + 1) (255 + 1)).2 rfl), gmul_zero_left]
    | succ j => rw [coeff_cons_succ, coeff_generator_255_middle (Nat.lt_of_succ_lt h), gmul_zero_right]
  rw [CoeffRatio, hprev, eq_comm, gmul_eq_zero_iff, gadd_eq_zero_iff, genPow_eq_genPow_iff] at hratio
  exact hratio.resolve_left (by omega)

/-- The polynomial with every nonzero element as a root is `x^255 + 1`. -/
theorem generator_255 : generator builtTables 255 = 1 :: monomial 254 1 := by
  obtain ⟨hgen, -⟩ := storable_generator builtTables (le_refl 255)
  have hmono : canon (1 :: monomial 254 1) = 1 :: monomial 254 1 :=
    List.rdropWhile_concat_neg _ (1 :: List.replicate 254 0) 1 (by decide)
  rw [← hgen, ← hmono, canon_eq_canon_iff]
  intro j
  cases j with
  | zero =>
    rw [coeff_generator_zero, coeff_cons_zero, ← genPow_zero, genPow_eq_genPow_iff, Finset.sum_range_id]
  | succ j =>
    rw [coeff_cons_succ, coeff_monomial]
    split
    case isTrue h => rw [h, coeff_generator_top]
    case isFalse h =>
      obtain hlt | hgt := Nat.lt_or_gt_of_ne h
      · exact coeff_generator_255_middle hlt
      · exact coeff_generator_of_lt _ (by omega)

/-! ## The syndromes (43_rs_derivations.md R192) -/

/-- Coefficient k of the syndromes is the value at 2^(k+1), for each k below their number. -/
theorem coeff_syndromes (t : Tables) (p : Poly) (n k : Nat) :
    coeff (syndromes t p n) k = if k < n then peval t p (gpow t 2 (k + 1)) else 0 := by
  rw [syndromes, coeff_canon, coeff_eq_dite]
  simp only [List.length_map, List.length_range, List.getElem_map, List.getElem_range, Config.gen]
  split <;> rfl

/-- The syndromes are [] exactly when every one of them is 0. -/
theorem syndromes_eq_nil_iff (t : Tables) (p : Poly) (n : Nat) :
    syndromes t p n = [] ↔ ∀ i, 1 ≤ i → i ≤ n → peval t p (gpow t 2 i) = 0 := by
  have hcanon : canon (syndromes t p n) = syndromes t p n := canon_canon _
  rw [← hcanon, canon_eq_nil_iff]
  simp only [coeff_syndromes, ite_eq_right_iff]
  refine ⟨fun h i hpos hle => ?_, fun h k hk => h (k + 1) k.succ_pos hk⟩
  obtain ⟨k, rfl⟩ := Nat.exists_eq_succ_of_ne_zero (Nat.ne_of_gt hpos)
  exact h k hle

/-- The cells a command with one polynomial result leaves in its register. -/
theorem State.finishPoly_cell (s : State) (d : RegIdx) (p : Poly) (k : Fin 256) :
    ((s.finishPoly d p).pregs[d]).cells[k] = coeff p k := by
  have hreg : (s.finishPoly d p).pregs[d] = PolyReg.ofPoly p := (s.preg_setPreg d d _).trans (if_pos rfl)
  rw [hreg]
  exact PolyReg.ofPoly_cell p k k.isLt

/-! ## The root map (43_rs_derivations.md R194, R195) -/

/-- Setting bits one after another: a bit is 1 when it was, or when its number is listed. -/
theorem getLsbD_foldl_setBit (r : List Byte) (m : BitVec 256) (v : Byte) :
    (r.foldl (fun m u => m ||| (1#256 <<< u.toNat)) m).getLsbD v.toNat = (m.getLsbD v.toNat || r.contains v) := by
  induction r generalizing m with
  | nil => exact (Bool.or_false _).symm
  | cons u r ih =>
    have hbit : (1#256 <<< u.toNat).getLsbD v.toNat = (v == u) := by
      rw [← BitVec.twoPow_eq, BitVec.getLsbD_twoPow, Bool.eq_iff_iff]
      have := u.isLt
      simp only [Bool.and_eq_true, decide_eq_true_eq, beq_iff_eq, BitVec.toNat_inj, eq_comm (a := u)]
      exact and_iff_right (by omega)
    rw [List.foldl_cons, ih, BitVec.getLsbD_or, hbit, List.contains_cons, Bool.or_assoc]

/-- No element is left out of the search. -/
theorem mem_roots_iff (t : Tables) (p : Poly) (v : Byte) : v ∈ roots t p ↔ peval t p v = 0 := by
  have hv : v ∈ (List.range 256).map (BitVec.ofNat 8) :=
    List.mem_map.2 ⟨v.toNat, List.mem_range.2 v.isLt, by simp⟩
  rw [roots, List.mem_filter, and_iff_right hv, beq_iff_eq]

/-- Bit v of the map is 1 exactly when v is a root. -/
theorem getLsbD_rootBits_roots (t : Tables) (p : Poly) (v : Byte) :
    (rootBits (roots t p)).getLsbD v.toNat = (peval t p v == 0) := by
  rw [rootBits, getLsbD_foldl_setBit, Bool.eq_iff_iff]
  simp [mem_roots_iff]

/-- The number of roots is counted by their numbers, as the bits of a map are. -/
theorem roots_length_eq (t : Tables) (p : Poly) :
    (roots t p).length = ((List.range 256).filter fun i => peval t p (BitVec.ofNat 8 i) == 0).length := by
  rw [roots, List.filter_map, List.length_map]
  rfl

/-- At most all 256 elements are roots. -/
theorem roots_length_le (t : Tables) (p : Poly) : (roots t p).length ≤ 256 := by
  rw [roots_length_eq]
  exact (List.length_filter_le _ _).trans_eq List.length_range

/-- ROOTCNT holds the number of roots (10_state.md R30). -/
theorem rootCount_toNat (t : Tables) (p : Poly) :
    (BitVec.ofNat 9 (roots t p).length).toNat = (roots t p).length := by
  have hle := roots_length_le t p
  rw [BitVec.toNat_ofNat]
  omega

/-- Each root sets a bit of its own. -/
theorem countBits_rootBits_roots (t : Tables) (p : Poly) : countBits (rootBits (roots t p)) = (roots t p).length := by
  rw [roots_length_eq, countBits]
  refine congrArg List.length (List.filter_congr fun i hi => ?_)
  have hbit := getLsbD_rootBits_roots t p (BitVec.ofNat 8 i)
  rwa [BitVec.toNat_ofNat, Nat.mod_eq_of_lt (List.mem_range.1 hi)] at hbit

/-- Every element is a root of the zero polynomial. -/
theorem roots_nil_length (t : Tables) : (roots t []).length = 256 := by
  rw [roots_length_eq]
  exact (congrArg List.length (List.filter_eq_self.2 fun _ _ => rfl)).trans List.length_range

/-- A nonzero constant has no root. -/
theorem roots_of_constant {p : Poly} (hlen : p.length = 1) (hne : coeff p 0 ≠ 0) : roots builtTables p = [] := by
  obtain ⟨c, rfl⟩ := List.length_eq_one_iff.1 hlen
  refine List.eq_nil_iff_forall_not_mem.2 fun v hv => hne ?_
  rwa [mem_roots_iff, peval_eq_horner, horner_cons, horner_nil, gmul_zero_left, gadd_zero] at hv

/-! ## The obligations -/

/-- Settles O23, by the capacity test; the corner cases are [1] and `x^255 + 1`. -/
theorem rsgenWritesTheGeneratorOrRaisesEcap : Obligations.RsgenWritesTheGeneratorOrRaisesEcap := by
  intro d n s
  refine ⟨decodeWord_rsgen d n, fun h => ?_, fun h => ?_, ?_, ?_⟩
  · rw [show wordI 0x30 d 0 n.toNat = encode (.rsgen d n) from wordI_eq_formatI 0x30 d 0 n]
    exact exec_of_commandError (.rsgen d n) s 0x04 (if_pos (Nat.lt_of_succ_lt_succ h))
  · exact (exec_rsgen_of_noError (if_neg (Nat.not_lt.2 (Nat.le_of_succ_le_succ h)))).2
  · rintro rfl
    rfl
  · rintro ht rfl
    rw [ht]
    exact generator_255

/-- Settles O24, by the capacity test; the syndromes are read off the written cells one by one. -/
theorem syndWritesTheSyndromesOrRaisesEcap : Obligations.SyndWritesTheSyndromesOrRaisesEcap := by
  rintro d a n s _ rfl
  refine ⟨decodeWord_synd d a n, fun h => ?_, fun h => ?_, fun ht i => ?_⟩
  · rw [wordI_eq_formatI]
    exact exec_of_commandError (.synd d a n) s 0x04 (if_pos h)
  · refine ⟨_, exec_eq_of_finishPoly (exec_synd_of_noError (if_neg (Nat.not_lt.2 h))).2, rfl, fun k hk => ?_, ?_⟩
    · exact (s.finishPoly_cell d _ k).trans ((coeff_syndromes _ _ _ _).trans (if_pos hk))
    · rw [← syndromes_eq_nil_iff, beq_iff_eq, List.length_eq_zero_iff]
      rfl
  · rw [ht, gpow_add_255]

/-- Settles O25: the map and the count are those of the root set. -/
theorem rootsWritesTheRootMap : Obligations.RootsWritesTheRootMap := by
  rintro a s p rfl
  refine ⟨decodeWord_roots a, _, rfl, getLsbD_rootBits_roots _ _,
    (rootCount_toNat _ _).trans (countBits_rootBits_roots _ _).symm, ?_, rfl, fun hp => ?_, fun ht hlen hne => ?_,
    fun ht => ?_⟩
  · show ((roots s.tables (s.poly a)).length == 0) = (BitVec.ofNat 9 (roots s.tables (s.poly a)).length == 0)
    rw [Bool.eq_iff_iff, beq_iff_eq, beq_iff_eq, ← BitVec.toNat_inj, rootCount_toNat]
    rfl
  · show BitVec.ofNat 9 (roots s.tables (s.pregs[a]).value).length = 256
    rw [hp, roots_nil_length]
    rfl
  · show BitVec.ofNat 9 (roots s.tables (s.pregs[a]).value).length = 0
    rw [ht, roots_of_constant hlen hne]
    rfl
  · show (rootBits (roots s.tables (s.pregs[a]).value)).getLsbD (0 : Byte).toNat = true ↔ _
    rw [getLsbD_rootBits_roots, ht, beq_iff_eq, peval_at_zero]

end Sys2Proof.Machine

/-! PROOFS. The statements of 60_exceptions.md: recording an error (R222), precise command errors (R223), execution with
an error recorded (R228) and the IRQ output (R230). That errors do not stop the engine rests on two facts: no command
reads the error record, and a failing command differs from a bare completion in that record only. -/

namespace Sys2Proof.Machine

/-! ## States that differ in the error record -/

/-- s with the error record of r: ERR, ERRCODE, EMULT and ERRINFO (10_state.md R34, R35). -/
def State.withErrorsOf (s r : State) : State :=
  { s with
    status := { s.status with err := r.status.err, errcode := r.status.errcode, emult := r.status.emult }
    errinfo := r.errinfo }

/-- Differing at most in the error record is being s with some error record. -/
theorem sameButErrors_iff_exists {s s' : State} : SameButErrors s s' ↔ ∃ r, s' = s.withErrorsOf r :=
  ⟨fun h => ⟨s', h⟩, by rintro ⟨r, rfl⟩; rfl⟩

/-- A replaced error record is the only difference. -/
theorem sameButErrors_withErrorsOf (s r : State) : SameButErrors s (s.withErrorsOf r) := rfl

/-- Each of two such states has the other's error record to take. -/
theorem SameButErrors.symm {s t : State} (h : SameButErrors s t) : SameButErrors t s := by
  obtain ⟨r, rfl⟩ := sameButErrors_iff_exists.1 h
  rfl

/-- Of two replacements of the error record the last counts. -/
theorem SameButErrors.trans {s t u : State} (h : SameButErrors s t) (h' : SameButErrors t u) : SameButErrors s u := by
  obtain ⟨r, rfl⟩ := sameButErrors_iff_exists.1 h
  obtain ⟨r', rfl⟩ := sameButErrors_iff_exists.1 h'
  exact sameButErrors_withErrorsOf s r'

/-- Recording an error changes the error record only (60_exceptions.md R222). -/
theorem statusAfterError_eq (st : Status) (code : Byte) :
    statusAfterError st code = { st with
      err := (statusAfterError st code).err
      errcode := (statusAfterError st code).errcode
      emult := (statusAfterError st code).emult } := by
  unfold statusAfterError
  split <;> rfl

/-- A failing command only completes but for the error record (60_exceptions.md R223). -/
theorem sameButErrors_commandFailed (s : State) (code : Byte) (w : Word) :
    SameButErrors s.complete (commandFailed s code w) := by
  unfold SameButErrors commandFailed
  rw [statusAfterError_eq]
  rfl

/-- A faulting write only answers but for the error record (60_exceptions.md R224). -/
theorem sameButErrors_busFailed (s : State) (code : Byte) (a : Offset) (data : Option Word) :
    SameButErrors { s with resp := some { data := data, error := Config.busErrResp } } (busFailed s code a data) := by
  unfold SameButErrors busFailed
  rw [statusAfterError_eq]

/-- A command fails alike whatever the error record held. -/
theorem SameButErrors.commandFailed {s s' : State} (h : SameButErrors s s') (code : Byte) (w : Word) :
    SameButErrors (commandFailed s code w) (commandFailed s' code w) := by
  obtain ⟨r, rfl⟩ := sameButErrors_iff_exists.1 h
  have hcomplete : SameButErrors s.complete (s.withErrorsOf r).complete := sameButErrors_withErrorsOf s.complete r
  exact (sameButErrors_commandFailed s code w).symm.trans
    (hcomplete.trans (sameButErrors_commandFailed (s.withErrorsOf r) code w))

/-- A write faults alike whatever the error record held. -/
theorem SameButErrors.busFailed {s s' : State} (h : SameButErrors s s') (code : Byte) (a : Offset)
    (data : Option Word) : SameButErrors (busFailed s code a data) (busFailed s' code a data) := by
  obtain ⟨r, rfl⟩ := sameButErrors_iff_exists.1 h
  refine (sameButErrors_busFailed s code a data).symm.trans (.trans ?_ (sameButErrors_busFailed _ code a data))
  exact sameButErrors_withErrorsOf _ r

/-- The bus accepts a command alike whatever the error record holds. -/
theorem SameButErrors.accept {s s' : State} (h : SameButErrors s s') (w : Word) :
    SameButErrors (answered (s.accept w) none) (answered (s'.accept w) none) := by
  obtain ⟨r, rfl⟩ := sameButErrors_iff_exists.1 h
  exact sameButErrors_withErrorsOf _ r

/-- BUSY is no part of the error record. -/
theorem SameButErrors.busy {s s' : State} (h : SameButErrors s s') : s'.busy = s.busy := by
  obtain ⟨r, rfl⟩ := sameButErrors_iff_exists.1 h
  rfl

/-! ## No command reads the error record -/

/-- The error conditions read the operands only (60_exceptions.md R221). -/
theorem commandError_withErrorsOf (s r : State) (i : Instr) : commandError (s.withErrorsOf r) i = commandError s i :=
  rfl

/-- A command without error neither reads nor writes the error record. -/
theorem exec_withErrorsOf_of_noError {i : Instr} {s : State} (r : State) (h : commandError s i = none) :
    ∃ t, exec i s = .next t ∧ exec i (s.withErrorsOf r) = .next (t.withErrorsOf r) := by
  have h' : commandError (s.withErrorsOf r) i = none := (commandError_withErrorsOf s r i).trans h
  cases i with
  | gdiv d a b =>
    have hb : ¬ s.sreg b = 0 := fun e => by simp [commandError, show s.sregs[b] = 0 from e] at h
    exact ⟨_, if_neg hb, if_neg hb⟩
  | pmul d a b => exact ⟨_, (exec_pmul_of_noError h).2, (exec_pmul_of_noError h').2⟩
  | pdiv q p a b => exact ⟨_, (exec_pdiv_of_noError h).2, (exec_pdiv_of_noError h').2⟩
  | pmod d a b => exact ⟨_, (exec_pmod_of_noError h).2, (exec_pmod_of_noError h').2⟩
  | rsgen d n => exact ⟨_, (exec_rsgen_of_noError h).2, (exec_rsgen_of_noError h').2⟩
  | synd d a n => exact ⟨_, (exec_synd_of_noError h).2, (exec_synd_of_noError h').2⟩
  | nop => exact ⟨_, rfl, rfl⟩
  | gadd d a b => exact ⟨_, rfl, rfl⟩
  | gmul d a b => exact ⟨_, rfl, rfl⟩
  | gmulr d a b => exact ⟨_, rfl, rfl⟩
  | gpow d a n => exact ⟨_, rfl, rfl⟩
  | ptrim d a => exact ⟨_, rfl, rfl⟩
  | padd d a b => exact ⟨_, rfl, rfl⟩
  | peval d a b => exact ⟨_, rfl, rfl⟩
  | pder d a => exact ⟨_, rfl, rfl⟩
  | roots a => exact ⟨_, rfl, rfl⟩

/-- Every command answers alike whatever the error record holds (60_exceptions.md R228). -/
theorem SameButErrors.exec {s s' : State} (h : SameButErrors s s') (i : Instr) :
    ∃ t t', exec i s = .next t ∧ exec i s' = .next t' ∧ SameButErrors t t' := by
  obtain ⟨r, rfl⟩ := sameButErrors_iff_exists.1 h
  cases he : commandError s i with
  | some code =>
    have he' : commandError (s.withErrorsOf r) i = some code := (commandError_withErrorsOf s r i).trans he
    exact ⟨_, _, exec_of_commandError i s code he, exec_of_commandError i _ code he', h.commandFailed code _⟩
  | none =>
    obtain ⟨t, ht, ht'⟩ := exec_withErrorsOf_of_noError r he
    exact ⟨t, _, ht, ht', sameButErrors_withErrorsOf t r⟩

/-! ## The engine's turn on an accepted word -/

/-- The engine's turn runs the accepted word (30_encoding.md R106). -/
theorem step_exec {s : State} {w : Word} (h : s.phase = .exec w) : step (withTurn s .engine) = s.runCommand w := by
  rw [step_engine, State.engineTurn, h]

/-! ## The IRQ output (60_exceptions.md R230) -/

/-- A STATUS write clears each source by its bit. -/
theorem afterStatusWrite_irq (s : State) (v : Word) :
    (afterStatusWrite s v).irq =
      ((s.ctrl.ieDone && s.status.done && !v.getLsbD 2) || (s.ctrl.ieErr && s.status.err && !v.getLsbD 3)) := by
  rw [Bool.and_assoc, Bool.and_assoc]
  rfl

/-- A CTRL write without reset leaves the sources it enables. -/
theorem afterCtrlWrite_irq_of_enables (s : State) {v : Word} (h : v.getLsbD 0 = false) :
    (afterCtrlWrite s v).irq = ((v.getLsbD 1 && s.status.done) || (v.getLsbD 2 && s.status.err)) := by
  rw [afterCtrlWrite, h]
  rfl

/-- A soft reset clears both sources. -/
theorem afterCtrlWrite_irq_of_reset (s : State) {v : Word} (h : v.getLsbD 0 = true) :
    (afterCtrlWrite s v).irq = false := by
  rw [afterCtrlWrite, h]
  rfl

/-- An accepted command clears DONE's source (30_encoding.md R105). -/
theorem State.accept_irq (s : State) (w : Word) : (s.accept w).irq = (s.ctrl.ieErr && s.status.err) := by
  simp [State.irq]

/-! ## The obligations -/

/-- Settles O26: the info value is the accepted word, because a decoded command encodes to its word. -/
theorem commandErrorsArePrecise : Obligations.CommandErrorsArePrecise := by
  intro s w hp
  rw [step_exec hp]
  refine ⟨fun e he => ?_, fun i code hi hc => ?_⟩
  · rw [State.runCommand, he]
    rfl
  · rw [State.runCommand, hi, ← (decodeWord_ok hi).2]
    exact exec_of_commandError i s code hc

/-- Settles O28: a CMD write by BUSY, which both states share, and a command by whether it fails. -/
theorem errorsDoNotStopTheEngine : Obligations.ErrorsDoNotStopTheEngine := by
  refine fun s s' h => ⟨h.exec, fun w => ⟨_, _, step_write (s.busWrite_cmd w), step_write (s'.busWrite_cmd w), ?_⟩⟩
  rw [h.busy]
  split
  · exact h.busFailed _ _ _
  · exact h.accept w

/-- Settles O50, each way of clearing the line by its own lemma. -/
theorem irqFollowsDoneAndErr : Obligations.IrqFollowsDoneAndErr := by
  refine ⟨rfl, fun s => ⟨by simp [State.irq], fun v => ⟨_, step_write (s.busWrite_status v), afterStatusWrite_irq s v⟩,
    fun v hv => ⟨_, step_write (s.busWrite_ctrl v), afterCtrlWrite_irq_of_enables s hv⟩,
    fun v hv => ⟨_, step_write (s.busWrite_ctrl v), afterCtrlWrite_irq_of_reset s hv⟩,
    ⟨_, step_hardReset s, rfl⟩, fun hi w => ⟨_, step_write ((s.busWrite_cmd w).trans (if_neg ?_)), s.accept_irq w⟩⟩⟩
  simp [s.not_busy_iff.2 hi]

/-- Settles O27, by ERR. -/
theorem firstErrorIsKept : Obligations.FirstErrorIsKept := by
  refine fun s e info => ⟨fun h => ?_, fun h => ?_⟩
  · rw [State.raise, h]
    rfl
  · rw [State.raise, h]
    rfl

end Sys2Proof.Machine

/-! PROOFS. The statements of 70_reset_and_hazards.md on the two resets: what a hardware reset restores (R260), after
which the bootstrap runs anew (R261), and what a soft reset clears and keeps (R262). -/

namespace Sys2Proof.Machine

/-! ## Cleared registers (10_state.md R39) -/

/-- The length of every polynomial register is 0 at reset. -/
theorem reset_len (i : Fin 8) : (State.reset.pregs[i]).len = 0 := by
  rw [reset_preg]
  rfl

/-- Every cell of every polynomial register is 0 at reset. -/
theorem reset_cell (i : Fin 8) (j : Fin 256) : (State.reset.pregs[i]).cells[j] = 0 := by
  rw [reset_preg]
  exact clear_cell j

/-! ## The soft reset (70_reset_and_hazards.md R262) -/

/-- The step of a CTRL write with bit 0 set: a soft reset, whatever the other bits enable. -/
theorem step_softReset (s : State) {v : Word} (h : v.getLsbD 0 = true) :
    step (withTurn s (.bus (.write (offset 0x04) 4 v))) = .next (answered (afterSoftReset s) none) := by
  rw [step_write (s.busWrite_ctrl v), afterCtrlWrite, if_pos h]

/-- A soft reset keeps a bootstrap in progress and abandons a command. -/
theorem afterSoftReset_phase (s : State) : (afterSoftReset s).phase = if s.phase = .boot then .boot else .idle := rfl

/-- A soft reset clears every field of STATUS but READY. -/
theorem afterSoftReset_status (s : State) :
    (afterSoftReset s).status = { State.reset.status with ready := s.status.ready } := rfl

/-- After a soft reset outside BOOT, STATUS shows READY and nothing else. -/
theorem afterSoftReset_statusWord (s : State) (hb : s.phase ≠ .boot) (hr : s.status.ready = true) :
    (afterSoftReset s).statusWord = 0x00000002 := by
  have hp : (afterSoftReset s).phase = .idle := (afterSoftReset_phase s).trans (if_neg hb)
  apply BitVec.eq_of_toNat_eq
  rw [State.statusWord_toNat, hp, afterSoftReset_status, hr]
  rfl

/-! ## The obligations -/

/-- Settles O38: the phase after the reset is BOOT, so the engine's next turn is the whole bootstrap. -/
theorem hardwareResetRestoresResetValues : Obligations.HardwareResetRestoresResetValues := fun s =>
  ⟨s.hardReset, step_hardReset s, rfl,
    s.hardReset.bootstrap, step_boot s.hardReset rfl, rfl, rfl, (bootstrapTables_eq_builtTables _).symm⟩

/-- Settles O39: what the reset clears has the value of `State.reset`, and the phase it leaves decides BUSY. -/
theorem softResetKeepsTablesAndReady : Obligations.SoftResetKeepsTablesAndReady := by
  intro s v hv
  refine ⟨answered (afterSoftReset s) none, step_softReset s hv, reset_sreg, reset_len, reset_cell,
    rfl, rfl, rfl, rfl, rfl, rfl, rfl, rfl, rfl, rfl, rfl, rfl, rfl, ?inBoot, ?outsideBoot, ?statusWord, rfl⟩
  case inBoot => exact fun hb => (afterSoftReset_phase s).trans (if_pos hb)
  case outsideBoot => exact fun hb => (afterSoftReset_phase s).trans (if_neg hb)
  case statusWord => exact afterSoftReset_statusWord s

end Sys2Proof.Machine

/-! PROOFS. Decoding and encoding undo each other (30_encoding.md R95, R97 to R99), on the words listed in
95_test_vectors.md too. -/

namespace Sys2Proof

/-- Decoding undoes encoding, row by row of the opcode map (30_encoding.md R97). PDIV is the one row with a check among
its operands, D ≠ E (R99). -/
theorem decodeWord_encode {i : Instr} (hi : WellFormed i) : decodeWord (encode i) = .ok i := by
  have of_word {w : Word} (hd : decodeWord w = .ok i) (hw : w = encode i) : decodeWord (encode i) = .ok i := hw ▸ hd
  cases i with
  | nop => rfl
  | gadd d a b => exact of_word (decodeWord_gadd d a b) (wordR_eq_formatR 0x10 d a b)
  | gmul d a b => exact of_word (decodeWord_gmul d a b) (wordR_eq_formatR 0x11 d a b)
  | gmulr d a b => exact of_word (decodeWord_gmulr d a b) (wordR_eq_formatR 0x12 d a b)
  | gdiv d a b => exact of_word (decodeWord_gdiv d a b) (wordR_eq_formatR 0x13 d a b)
  | gpow d a n => exact of_word (decodeWord_gpow d a n) (wordI_eq_formatI 0x14 d a n)
  | ptrim d a => exact of_word (decodeWord_ptrim d a) (wordR_eq_formatR 0x20 d a 0)
  | padd d a b => exact of_word (decodeWord_padd d a b) (wordR_eq_formatR 0x21 d a b)
  | pmul d a b => exact of_word (decodeWord_pmul d a b) (wordR_eq_formatR 0x22 d a b)
  | pdiv q r a b => exact of_word (decodeWord_pdiv a b (bne_iff_ne.1 hi)) (wordR_reg_eq_formatR 0x23 q a b r)
  | pmod d a b => exact of_word (decodeWord_pmod d a b) (wordR_eq_formatR 0x24 d a b)
  | peval d a b => exact of_word (decodeWord_peval d a b) (wordR_eq_formatR 0x25 d a b)
  | pder d a => exact of_word (decodeWord_pder d a) (wordR_eq_formatR 0x26 d a 0)
  | rsgen d n => exact of_word (decodeWord_rsgen d n) (wordI_eq_formatI 0x30 d 0 n)
  | synd d a t => exact of_word (decodeWord_synd d a t) (wordI_eq_formatI 0x31 d a t)
  | roots a => exact of_word (decodeWord_roots a) (wordR_eq_formatR 0x32 0 a 0)

/-- Settles O2: the words of every row of the opcode map decode by their operand form. -/
theorem decodeOfEncodeIsIdentity : Obligations.DecodeOfEncodeIsIdentity := fun _ => decodeWord_encode

/-- Settles O3: the decoder checks every bit of the word that it does not read into an operand. -/
theorem encodeOfDecodeIsIdentity : Obligations.EncodeOfDecodeIsIdentity := fun _ _ => decodeWord_ok

/-- Settles O1, each word by evaluation of the decoder. -/
theorem decodesWordsOfTheSpec : Obligations.DecodesWordsOfTheSpec :=
  ⟨rfl, rfl, rfl, rfl, rfl, rfl, rfl, rfl, rfl, rfl, rfl, rfl, rfl⟩

end Sys2Proof

/-! PROOFS. The engine's turn (30_encoding.md R106; 70_reset_and_hazards.md R261, R270), what each command writes and
leaves (30_encoding.md R106), the ZERO flag (10_state.md R38), and the invariant of the machine. A command without error
ends in one of six ways (`CommandEnd`); its frame, its ZERO and the invariant after it are read off these. -/

namespace Sys2Proof.Machine

/-! ## The engine's turn -/

/-- Every engine turn answers a next state (60_exceptions.md R228). -/
theorem State.engineTurn_next (s : State) : ∃ t, s.engineTurn = .next t := by
  obtain ⟨-, e⟩ | ⟨-, e⟩ | ⟨w, -, e⟩ := s.engineTurn_cases
  · exact ⟨_, e⟩
  · exact ⟨_, e⟩
  · obtain ⟨i, -, e'⟩ | ⟨-, -, e'⟩ := s.runCommand_cases w
    · obtain ⟨t, ht⟩ := exec_next i s
      exact ⟨t, e.trans (e'.trans ht)⟩
    · exact ⟨_, e.trans e'⟩

/-- A turn of the host or of the reset input is none of the engine. -/
theorem not_engineMoves {s : State} {turn : Turn} {q : List Turn} (h : s.schedule = turn :: q)
    (hne : turn ≠ .engine) : ¬ EngineMoves s := by
  rintro (h' | ⟨q', h'⟩)
  · cases h.symm.trans h'
  · exact hne (List.cons.inj (h.symm.trans h')).1

/-- Settles O34: the engine's turns end in IDLE, and the other turns are total. -/
theorem engineAlwaysReturnsToIdle : Obligations.EngineAlwaysReturnsToIdle := by
  intro s
  obtain ⟨-, e⟩ | ⟨x, q, hs, e⟩ | ⟨q, hs, e⟩ := step_cases s
  · obtain ⟨t, ht⟩ := s.popTurn.engineTurn_next
    exact ⟨t, e.trans ht, fun _ => State.engineTurn_phase ht⟩
  · exact ⟨_, e, fun h => absurd h (not_engineMoves hs nofun)⟩
  · exact ⟨_, e, fun h => absurd h (not_engineMoves hs nofun)⟩

/-- Settles O5: the turn taken off, the engine runs the accepted word. -/
theorem stepRunsDecodedCommand : Obligations.StepRunsDecodedCommand := by
  intro s w i hm hp hi
  have hphase : s.popTurn.phase = .exec w := hp
  have hturn : s.popTurn.engineTurn = s.popTurn.runCommand w := by rw [State.engineTurn, hphase]
  rw [step_of_engineMoves s hm, hturn, State.runCommand, hi]
  rfl

/-- Settles O6: the loop leaves the tables of the bootstrap, whatever they held. -/
theorem bootstrapRunsTheLoop : Obligations.BootstrapRunsTheLoop := by
  intro s hs
  rw [bootstrapTables_eq_builtTables]
  exact step_boot s hs

/-! ## The ways a command ends -/

/-- The end states of a command without error, by the kind of its destinations (30_encoding.md R97, R106). -/
inductive CommandEnd (s : State) : Instr → State → Prop
  | nop : CommandEnd s .nop s.complete
  | scalar {i : Instr} {d : RegIdx} (r : Byte) : scalarDests i = [d] → polyDests i = [] → writesRoots i = false →
      CommandEnd s i (s.finishScalar d r)
  | poly {i : Instr} {d : RegIdx} {p : Poly} : Storable p → scalarDests i = [] → polyDests i = [d] →
      writesRoots i = false → (∀ e n, i ≠ .rsgen e n) → CommandEnd s i (s.finishPoly d p)
  | quotRem {q r a b : RegIdx} {pq pr : Poly} : Storable pq → Storable pr →
      CommandEnd s (.pdiv q r a b) ((s.setPoly q pq).finishPoly r pr)
  | generator {d : RegIdx} {n : BitVec 16} {p : Poly} : Storable p →
      CommandEnd s (.rsgen d n) (((s.setPoly d p).setZero false).complete)
  | roots {a : RegIdx} (p : Poly) :
      CommandEnd s (.roots a) (((s.setRoots (roots s.tables p)).setZero (zeroOfCount (roots s.tables p).length)).complete)

/-- A command without error ends in one of these states. -/
theorem commandEnd_of_noError {i : Instr} {s t : State} (hok : commandError s i = none) (he : exec i s = .next t) :
    CommandEnd s i t := by
  have of_end {u : State} (hu : exec i s = .next u) (h : CommandEnd s i u) : CommandEnd s i t := by
    cases hu.symm.trans he
    exact h
  cases i with
  | nop => exact of_end rfl .nop
  | gadd d a b => exact of_end rfl (.scalar _ rfl rfl rfl)
  | gmul d a b => exact of_end rfl (.scalar _ rfl rfl rfl)
  | gmulr d a b => exact of_end rfl (.scalar _ rfl rfl rfl)
  | gdiv d a b =>
    simp only [commandError, ite_eq_right_iff, reduceCtorEq, imp_false] at hok
    exact of_end (if_neg hok) (.scalar _ rfl rfl rfl)
  | gpow d a n => exact of_end rfl (.scalar _ rfl rfl rfl)
  | peval d a b => exact of_end rfl (.scalar _ rfl rfl rfl)
  | ptrim d a => exact of_end rfl (.poly (storable_poly s a) rfl rfl rfl nofun)
  | padd d a b => exact of_end rfl (.poly (storable_padd (storable_poly s a).2 (storable_poly s b).2) rfl rfl rfl nofun)
  | pmul d a b =>
    obtain ⟨hfit, hu⟩ := exec_pmul_of_noError hok
    rw [productTooLong_iff] at hfit
    have ha := (storable_poly s a).2
    have hb := (storable_poly s b).2
    exact of_end hu (.poly (storable_pmul (by omega)) rfl rfl rfl nofun)
  | pdiv q r a b =>
    obtain ⟨hb, hu⟩ := exec_pdiv_of_noError hok
    obtain ⟨hq, hr⟩ := storable_pdivmod s.tables (storable_poly s a) hb
    exact of_end hu (.quotRem hq hr)
  | pmod d a b =>
    obtain ⟨hb, hu⟩ := exec_pmod_of_noError hok
    exact of_end hu (.poly (storable_pdivmod s.tables (storable_poly s a) hb).2 rfl rfl rfl nofun)
  | pder d a => exact of_end rfl (.poly (storable_pder (storable_poly s a).2) rfl rfl rfl nofun)
  | rsgen d n =>
    obtain ⟨hn, hu⟩ := exec_rsgen_of_noError hok
    exact of_end hu (.generator (storable_generator s.tables hn))
  | synd d a n =>
    obtain ⟨hn, hu⟩ := exec_synd_of_noError hok
    exact of_end hu (.poly (storable_syndromes s.tables (s.poly a) hn) rfl rfl rfl nofun)
  | roots a => exact of_end rfl (.roots (s.poly a))

/-! ## The frame of a command (30_encoding.md R106) -/

/-- A scalar register that is no destination keeps its value. -/
theorem CommandEnd.sreg_of_notMem {s t : State} {i : Instr} (h : CommandEnd s i t) {r : RegIdx}
    (hr : r ∉ scalarDests i) : t.sreg r = s.sreg r := by
  cases h with
  | nop => rfl
  | @scalar _ d v hd =>
    have hdr : d ≠ r := fun e => hr (by rw [hd, e]; exact List.mem_singleton_self r)
    exact (s.sreg_setSreg d r v).trans (if_neg hdr)
  | poly => rfl
  | quotRem => rfl
  | generator => rfl
  | roots => rfl

/-- An engine write leaves every other polynomial register as it was. -/
theorem State.preg_setPoly_of_ne (s : State) {d r : RegIdx} (hr : r ≠ d) (p : Poly) :
    (s.setPoly d p).pregs[r] = s.pregs[r] :=
  (s.preg_setPreg d r _).trans (if_neg hr.symm)

/-- A polynomial register that is no destination keeps its content. -/
theorem CommandEnd.preg_of_notMem {s t : State} {i : Instr} (h : CommandEnd s i t) {r : RegIdx}
    (hr : r ∉ polyDests i) : t.pregs[r] = s.pregs[r] := by
  cases h with
  | nop => rfl
  | scalar => rfl
  | @poly _ d p _ _ hd =>
    rw [hd, List.mem_singleton] at hr
    exact s.preg_setPoly_of_ne hr p
  | @quotRem q r' _ _ pq pr =>
    obtain ⟨hq, hr'⟩ := not_or.1 (mt List.mem_pair.2 hr)
    exact ((s.setPoly q pq).preg_setPoly_of_ne hr' pr).trans (s.preg_setPoly_of_ne hq pq)
  | generator => exact s.preg_setPoly_of_ne (mt List.mem_singleton.2 hr) _
  | roots => rfl

/-- ROOTMAP and ROOTCNT are written by ROOTS only. -/
theorem CommandEnd.roots_of_not_writesRoots {s t : State} {i : Instr} (h : CommandEnd s i t)
    (hw : writesRoots i = false) : t.rootmap = s.rootmap ∧ t.rootcnt = s.rootcnt := by
  cases h with
  | roots => cases hw
  | nop => exact ⟨rfl, rfl⟩
  | scalar => exact ⟨rfl, rfl⟩
  | poly => exact ⟨rfl, rfl⟩
  | quotRem => exact ⟨rfl, rfl⟩
  | generator => exact ⟨rfl, rfl⟩

/-- Settles O29: a failing command writes the error record alone, any other ends as `CommandEnd` says. -/
theorem commandsWriteOnlyTheirDestinations : Obligations.CommandsWriteOnlyTheirDestinations := by
  intro i s t he
  obtain ⟨code, -, rfl⟩ | ⟨hok, hc⟩ := exec_cases he
  · have hready : (statusAfterError s.status code).ready = s.status.ready := by rw [statusAfterError_eq]
    exact ⟨fun _ _ => rfl, fun _ _ => rfl, fun _ => ⟨rfl, rfl⟩, rfl, rfl, rfl, hready, rfl, rfl, rfl⟩
  · have hend := commandEnd_of_noError hok he
    exact ⟨fun _ => hend.sreg_of_notMem, fun _ => hend.preg_of_notMem, hend.roots_of_not_writesRoots, hc.tables,
      hc.lastcmd, hc.ctrl, by rw [hc.status], hc.schedule, hc.resp, hc.draws⟩

/-! ## The ZERO flag (10_state.md R38) -/

/-- LEN after an engine write is 0 exactly when the polynomial is []. -/
theorem PolyReg.ofPoly_len_beq_zero {p : Poly} (h : p.length ≤ 256) :
    ((PolyReg.ofPoly p).len == 0) = (p.length == 0) := by
  rw [Bool.eq_iff_iff, beq_iff_eq, beq_iff_eq, ← BitVec.toNat_inj, PolyReg.ofPoly_len p h]
  rfl

/-- After a polynomial result ZERO says whether the LEN written is 0. -/
theorem State.finishPoly_zero (s : State) (d : RegIdx) {p : Poly} (hp : p.length ≤ 256) :
    (s.finishPoly d p).status.zero = (((s.finishPoly d p).pregs[d]).len == 0) := by
  have hreg : (s.finishPoly d p).pregs[d] = PolyReg.ofPoly p := (s.preg_setPreg d d _).trans (if_pos rfl)
  rw [hreg, PolyReg.ofPoly_len_beq_zero hp]
  rfl

/-- ROOTCNT is 0 exactly when there is no root. -/
theorem rootCount_beq_zero (t : Tables) (p : Poly) :
    (BitVec.ofNat 9 (roots t p).length == 0) = ((roots t p).length == 0) := by
  rw [Bool.eq_iff_iff, beq_iff_eq, beq_iff_eq, ← BitVec.toNat_inj, rootCount_toNat]
  rfl

/-- An error record leaves ZERO as it was. -/
theorem statusAfterError_zero (st : Status) (code : Byte) : (statusAfterError st code).zero = st.zero := by
  rw [statusAfterError_eq]

/-- ZERO after a scalar result. -/
theorem CommandEnd.zero_of_scalar {s t : State} {i : Instr} (h : CommandEnd s i t) {d : RegIdx}
    (hd : scalarDests i = [d]) : t.status.zero = (t.sreg d == 0) := by
  cases h with
  | @scalar _ d' r hd' =>
    obtain rfl := List.singleton_inj.1 (hd'.symm.trans hd)
    have hreg : (s.finishScalar d' r).sreg d' = r := (s.sreg_setSreg d' d' r).trans (if_pos rfl)
    rw [hreg]
    rfl
  | poly _ hd' => cases hd'.symm.trans hd
  | nop => cases hd
  | quotRem => cases hd
  | generator => cases hd
  | roots => cases hd

/-- ZERO after a polynomial result that is no generator polynomial; of PDIV's two it is the remainder. -/
theorem CommandEnd.zero_of_poly {s t : State} {i : Instr} (h : CommandEnd s i t) {d : RegIdx}
    (hd : (polyDests i).getLast? = some d) : t.status.zero = ((t.pregs[d]).len == 0) ∨ ∃ n, i = .rsgen d n := by
  cases h with
  | @poly _ d' p hp _ hd' =>
    rw [hd'] at hd
    obtain rfl := Option.some.inj hd
    exact .inl (s.finishPoly_zero d' hp.2)
  | @quotRem q r _ _ pq pr _ hp =>
    obtain rfl := Option.some.inj hd
    exact .inl ((s.setPoly q pq).finishPoly_zero r hp.2)
  | @generator d' n =>
    obtain rfl := Option.some.inj hd
    exact .inr ⟨n, rfl⟩
  | scalar _ _ hd' => rw [hd'] at hd; cases hd
  | nop => cases hd
  | roots => cases hd

/-- RSGEN writes ZERO 0 (43_rs_derivations.md R191). -/
theorem CommandEnd.zero_of_rsgen {s t : State} {d : RegIdx} {n : BitVec 16} (h : CommandEnd s (.rsgen d n) t) :
    t.status.zero = false := by
  cases h with
  | generator => rfl
  | scalar _ hd => cases hd
  | poly _ _ _ _ hne => exact absurd rfl (hne d n)

/-- ZERO after ROOTS. -/
theorem CommandEnd.zero_of_roots {s t : State} {i : Instr} (h : CommandEnd s i t) (hw : writesRoots i = true) :
    t.status.zero = (t.rootcnt == 0) := by
  cases h with
  | roots p => exact (rootCount_beq_zero s.tables p).symm
  | scalar _ _ _ hf => cases hf.symm.trans hw
  | poly _ _ _ hf => cases hf.symm.trans hw
  | nop => cases hw
  | quotRem => cases hw
  | generator => cases hw

/-- NOP leaves ZERO as it was (41_field.md R125). -/
theorem CommandEnd.zero_of_nop {s t : State} (h : CommandEnd s .nop t) : t.status.zero = s.status.zero := by
  cases h with
  | nop => rfl
  | scalar _ hd => cases hd
  | poly _ _ hd => cases hd

/-- Only a soft reset among the CTRL writes writes ZERO. -/
theorem afterCtrlWrite_zero (s : State) {v : Word} (h : v.getLsbD 0 = false) :
    (afterCtrlWrite s v).status.zero = s.status.zero := by
  rw [afterCtrlWrite, h]
  rfl

/-- No transaction but a soft reset writes ZERO. -/
theorem State.transact_zero (s : State) (x : Txn)
    (hx : ∀ v, x = .write (offset 0x04) 4 v → v.getLsbD 0 = false) : (s.transact x).status.zero = s.status.zero := by
  cases x with
  | read a width =>
    obtain e | ⟨-, -, e⟩ | e := s.busRead_cases a width <;> rw [State.transact, e]
    · exact statusAfterError_zero _ _
    · rfl
    · rfl
  | write a width v =>
    have hout := s.busWrite_outcome a width v
    rw [State.transact]
    generalize s.busWrite a width v = t at hout ⊢
    cases hout with
    | fault e => exact statusAfterError_zero _ _
    | ctrl ha hw => exact afterCtrlWrite_zero s (hx v (by rw [ha, hw]))
    | status => rfl
    | cmd => rfl
    | sreg => rfl
    | len => rfl
    | cell => rfl

/-- Settles O32: each kind of result writes ZERO at the command's end, and an error record or a transaction does not. -/
theorem zeroFlagIsWrittenAsRuled : Obligations.ZeroFlagIsWrittenAsRuled := by
  refine ⟨fun i s t hok he => ?_, fun i s t hne he => ?_, fun s t x h hx => ?_⟩
  · have hend := commandEnd_of_noError hok he
    refine ⟨fun _ => hend.zero_of_scalar, fun _ => hend.zero_of_poly, ?_, hend.zero_of_roots, ?_⟩
    · rintro d n rfl
      exact hend.zero_of_rsgen
    · rintro rfl
      exact hend.zero_of_nop
  · obtain ⟨code, -, rfl⟩ | ⟨hok, -⟩ := exec_cases he
    · exact statusAfterError_zero _ _
    · exact absurd hok hne
  · cases (step_bus s x).symm.trans h
    exact s.transact_zero x hx

/-! ## The invariant under each operation -/

/-- Settles O35: BOOT with READY, DONE and ERR clear, and every register 0. -/
theorem invariantAtReset : Obligations.InvariantAtReset where
  ready_iff := by simp [State.reset]
  tables_built := nofun
  len_legal i := by rw [reset_len]; exact Nat.zero_le _
  rootcnt_counts := by decide +kernel
  no_error _ := ⟨rfl, rfl⟩
  error_code := nofun
  running_is_last := nofun
  busy_not_done _ := rfl

/-- The model's own fields and the enables of CTRL are no part of the invariant. -/
theorem State.Inv.withModelFields {s : State} (h : s.Inv) (c : Ctrl) (q : List Turn) (r : Option BusResp) (n : Nat) :
    State.Inv { s with ctrl := c, schedule := q, resp := r, draws := n } where
  __ := h

theorem State.Inv.answered {s : State} (h : s.Inv) (data : Option Word) : (answered s data).Inv where
  __ := h

theorem State.Inv.setSreg {s : State} (h : s.Inv) (i : RegIdx) (v : Byte) : (s.setSreg i v).Inv where
  __ := h

theorem State.Inv.setZero {s : State} (h : s.Inv) (z : Bool) : (s.setZero z).Inv where
  __ := h

/-- A polynomial register may be replaced by one of legal LEN. -/
theorem State.Inv.setPreg {s : State} (h : s.Inv) (i : RegIdx) {r : PolyReg} (hr : r.len.toNat ≤ 256) :
    (s.setPreg i r).Inv where
  __ := h
  len_legal j := by
    rw [s.preg_setPreg]
    split
    · exact hr
    · exact h.len_legal j

/-- An engine write of a polynomial that fits writes a legal LEN. -/
theorem State.Inv.setPoly {s : State} (h : s.Inv) (i : RegIdx) {p : Poly} (hp : Storable p) : (s.setPoly i p).Inv :=
  h.setPreg i ((PolyReg.ofPoly_len p hp.2).trans_le hp.2)

/-- ROOTMAP and ROOTCNT are written together. -/
theorem State.Inv.setRoots {s : State} (h : s.Inv) (t : Tables) (p : Poly) : (s.setRoots (roots t p)).Inv where
  __ := h
  rootcnt_counts := (rootCount_toNat t p).trans (countBits_rootBits_roots t p).symm

/-- Completion leaves EXEC for IDLE, where DONE may be set. -/
theorem State.Inv.complete {s : State} (h : s.Inv) (hb : s.phase ≠ .boot) : s.complete.Inv where
  __ := h
  ready_iff := iff_of_true (h.ready_iff.2 hb) nofun
  running_is_last := nofun
  busy_not_done hne := absurd rfl hne

/-- Acceptance outside BOOT clears DONE and keeps the word (30_encoding.md R105). -/
theorem State.Inv.accept {s : State} (h : s.Inv) (hb : s.phase ≠ .boot) (w : Word) : (s.accept w).Inv where
  __ := h
  ready_iff := iff_of_true (h.ready_iff.2 hb) nofun
  running_is_last _ hw := Phase.exec.inj hw
  busy_not_done _ := rfl

/-- An error record holds one of the codes 1 to 7 (60_exceptions.md R221, R222). -/
theorem State.Inv.raise {s : State} (h : s.Inv) (e : ErrKind) (info : Word) : (s.raise e info).Inv := by
  have hcode : 1 ≤ e.code.toNat ∧ e.code.toNat ≤ 7 := by cases e <;> decide
  unfold State.raise
  cases herr : s.status.err with
  | true => exact { h with
      no_error := fun h0 => absurd (h0.symm.trans herr) Bool.false_ne_true
      error_code := fun _ => h.error_code herr }
  | false => exact { h with
      no_error := nofun
      error_code := fun _ => hcode }

/-- Clearing the error record clears it whole (60_exceptions.md R231), and DONE and EMULT may be cleared with it. -/
theorem State.Inv.afterStatusWrite {s : State} (h : s.Inv) (v : Word) : (afterStatusWrite s v).Inv := by
  have hdone (hp : s.phase ≠ .idle) : (s.status.done && !v.getLsbD 2) = false := by rw [h.busy_not_done hp]; rfl
  unfold Machine.afterStatusWrite
  cases hclear : v.getLsbD 3 with
  | true => exact { h with
      no_error := fun _ => ⟨rfl, rfl⟩
      error_code := fun h1 => absurd h1 (by simp)
      busy_not_done := hdone }
  | false => exact { h with
      no_error := fun h0 => h.no_error (by simpa using h0)
      error_code := fun h1 => h.error_code (by simpa using h1)
      busy_not_done := hdone }

/-- A soft reset keeps READY with the tables and the phase it goes with (70_reset_and_hazards.md R262). -/
theorem State.Inv.afterSoftReset {s : State} (h : s.Inv) : (afterSoftReset s).Inv where
  __ := invariantAtReset
  ready_iff := h.ready_iff.trans (not_congr (by rw [afterSoftReset_phase]; split <;> simp [*]))
  tables_built := h.tables_built
  running_is_last w hw := by
    rw [afterSoftReset_phase] at hw
    split at hw <;> cases hw
  busy_not_done _ := rfl

/-- A hardware reset leaves the tables unspecified and READY clear (70_reset_and_hazards.md R260). -/
theorem State.Inv.hardReset (s : State) : s.hardReset.Inv where
  __ := invariantAtReset
  tables_built := nofun

/-- The bootstrap sets READY with the tables it has built (70_reset_and_hazards.md R261). -/
theorem State.Inv.bootstrap {s : State} (h : s.Inv) : s.bootstrap.Inv where
  __ := h
  ready_iff := iff_of_true rfl nofun
  tables_built _ := rfl
  running_is_last := nofun
  busy_not_done hne := absurd rfl hne

/-! ## The invariant under each turn -/

/-- The error a command raises has a kind (60_exceptions.md R221). -/
theorem exists_kind_of_commandError {s : State} {i : Instr} {code : Byte} (h : commandError s i = some code) :
    ∃ e : ErrKind, code = e.code := by
  have of_ite {c : Prop} [Decidable c] (e : ErrKind) (h : (if c then some e.code else none) = some code) :
      ∃ e : ErrKind, code = e.code :=
    ⟨e, (Option.some.inj (Option.ite_none_right_eq_some.1 h).2).symm⟩
  cases i with
  | gdiv d a b => exact of_ite .edivz h
  | pdiv q r a b => exact of_ite .epdivz h
  | pmod d a b => exact of_ite .epdivz h
  | pmul d a b => exact of_ite .ecap h
  | rsgen d n => exact of_ite .ecap h
  | synd d a n => exact of_ite .ecap h
  | nop => cases h
  | gadd => cases h
  | gmul => cases h
  | gmulr => cases h
  | gpow => cases h
  | ptrim => cases h
  | padd => cases h
  | peval => cases h
  | pder => cases h
  | roots => cases h

/-- A command outside BOOT keeps the invariant. -/
theorem State.Inv.of_commandEnd {s t : State} (h : s.Inv) (hb : s.phase ≠ .boot) {i : Instr} (he : CommandEnd s i t) :
    t.Inv := by
  cases he with
  | nop => exact h.complete hb
  | @scalar _ d r => exact ((h.setSreg d r).setZero _).complete hb
  | @poly _ d _ hp => exact ((h.setPoly d hp).setZero _).complete hb
  | @quotRem q r _ _ _ _ hq hr => exact (((h.setPoly q hq).setPoly r hr).setZero _).complete hb
  | @generator d _ _ hp => exact ((h.setPoly d hp).setZero _).complete hb
  | roots p => exact ((h.setRoots s.tables p).setZero _).complete hb

/-- The accepted word, legal or not, keeps the invariant. -/
theorem State.Inv.of_runCommand {s t : State} (h : s.Inv) (hb : s.phase ≠ .boot) {w : Word}
    (ht : s.runCommand w = .next t) : t.Inv := by
  obtain ⟨i, -, e⟩ | ⟨-, -, e⟩ := s.runCommand_cases w
  · have he := e.symm.trans ht
    obtain ⟨code, hcode, rfl⟩ | ⟨hok, -⟩ := exec_cases he
    · obtain ⟨k, rfl⟩ := exists_kind_of_commandError hcode
      exact (h.raise k (encode i)).complete hb
    · exact h.of_commandEnd hb (commandEnd_of_noError hok he)
  · cases e.symm.trans ht
    exact (h.raise .eill w).complete hb

/-- The engine's turn keeps the invariant. -/
theorem State.Inv.of_engineTurn {s t : State} (h : s.Inv) (ht : s.engineTurn = .next t) : t.Inv := by
  obtain ⟨-, e⟩ | ⟨-, e⟩ | ⟨w, hp, e⟩ := s.engineTurn_cases
  · cases e.symm.trans ht
    exact h.bootstrap
  · cases e.symm.trans ht
    exact h
  · exact h.of_runCommand (by rw [hp]; nofun) (e.symm.trans ht)

/-- A transaction that failed keeps the invariant. -/
theorem State.Inv.busFailed {s : State} (h : s.Inv) (e : ErrKind) (a : Offset) (data : Option Word) :
    (busFailed s e.code a data).Inv where
  __ := h.raise e (offsetInfo a)

/-- A CTRL write keeps the invariant. -/
theorem State.Inv.afterCtrlWrite {s : State} (h : s.Inv) (v : Word) : (afterCtrlWrite s v).Inv := by
  unfold Machine.afterCtrlWrite
  split
  · exact h.afterSoftReset
  · exact h.withModelFields _ _ _ _

/-- A write keeps the invariant. -/
theorem State.Inv.of_writeOutcome {s t : State} (h : s.Inv) {a : Offset} {width : Nat} {v : Word}
    (ht : WriteOutcome s a width v t) : t.Inv := by
  cases ht with
  | fault e => exact h.busFailed e a none
  | ctrl => exact (h.afterCtrlWrite v).answered none
  | status => exact (h.afterStatusWrite v).answered none
  | cmd _ _ hi => exact (h.accept (by rw [hi]; nofun) v).answered none
  | sreg i => exact (h.setSreg i _).answered none
  | len i _ _ hv =>
    have hlen : (v.setWidth 9).toNat ≤ 256 := by
      rw [BitVec.toNat_setWidth]
      exact (Nat.mod_le _ _).trans ((fitsLength_iff v).1 hv)
    exact (h.setPreg i hlen).answered none
  | cell p j =>
    have hcell : (s.setCell p j (v.setWidth 8)).Inv := h.setPreg p (h.len_legal p)
    exact hcell.answered none

/-- A transaction keeps the invariant. -/
theorem State.Inv.transact {s : State} (h : s.Inv) (x : Txn) : (s.transact x).Inv := by
  cases x with
  | read a width =>
    obtain e | ⟨-, -, e⟩ | e := s.busRead_cases a width <;> rw [State.transact, e]
    · exact h.busFailed .eacc a (some 0)
    · exact h.withModelFields _ _ _ _
    · exact h.answered _
  | write a width v => exact h.of_writeOutcome (s.busWrite_outcome a width v)

/-- Settles O36, by the turn: the engine's, the host's or the reset input's. -/
theorem stepKeepsInvariant : Obligations.StepKeepsInvariant := by
  intro s t h ht
  have hpop : s.popTurn.Inv := h.withModelFields _ _ _ _
  obtain ⟨-, e⟩ | ⟨x, q, -, e⟩ | ⟨q, -, e⟩ := step_cases s
  · exact hpop.of_engineTurn (e.symm.trans ht)
  · cases e.symm.trans ht
    exact hpop.transact x
  · cases e.symm.trans ht
    exact .hardReset _

end Sys2Proof.Machine

/-! PROOFS. The laws of polynomial arithmetic on the built tables (42_polynomial.md R167): the polynomial ring, Euclidean
division, evaluation and the derivative. A canonical polynomial is known by its coefficients, and the product follows the
first operand: `(x + X·a)·b = x·b + X·(a·b)`, where X times a polynomial is the list with a 0 in front. -/

namespace Sys2Proof.Machine

/-! ## Sums over the field -/

/-- Two sums added are one sum of four terms, in any order. -/
theorem gadd_gadd_gadd_comm (a b c d : Byte) : gadd (gadd a b) (gadd c d) = gadd (gadd a c) (gadd b d) := by
  unfold gadd
  ac_rfl

/-- A term added twice cancels. -/
theorem gadd_gadd_cancel_right (a b c : Byte) : gadd (gadd a b) (gadd c b) = gadd a c := by
  rw [gadd_gadd_gadd_comm, (gadd_eq_zero_iff b b).2 rfl, gadd_zero]

theorem fieldSum_map_gadd {α : Type} (l : List α) (f g : α → Byte) :
    fieldSum (l.map fun j => gadd (f j) (g j)) = gadd (fieldSum (l.map f)) (fieldSum (l.map g)) := by
  induction l with
  | nil => exact (gadd_zero 0).symm
  | cons j l ih => simp only [List.map_cons, fieldSum_cons, ih, gadd_gadd_gadd_comm]

/-- A sum does not depend on the order of its terms. -/
theorem fieldSum_perm {l l' : List Byte} (h : l.Perm l') : fieldSum l = fieldSum l' :=
  haveI : LeftCommutative gadd := ⟨fun a b c => by rw [← gadd_assoc, gadd_comm a, gadd_assoc]⟩
  h.foldr_eq 0

/-- A sum over 0..n taken from the other end. -/
theorem fieldSum_range_reflect (f : Nat → Byte) (n : Nat) :
    fieldSum ((List.range (n + 1)).map fun j => f (n - j)) = fieldSum ((List.range (n + 1)).map f) := by
  have hrev : (List.range (n + 1)).map (n - ·) = (List.range (n + 1)).reverse :=
    List.ext_getElem (by simp) fun j _ _ => by simp
  have hperm : ((List.range (n + 1)).map (n - ·)).Perm (List.range (n + 1)) := hrev ▸ List.reverse_perm _
  simpa only [List.map_map, Function.comp_def] using fieldSum_perm (hperm.map f)

/-! ## Polynomials by their coefficients -/

/-- Canonical polynomials with the same coefficients are equal. -/
theorem eq_of_coeff_eq {a b : Poly} (ha : Canonical a) (hb : Canonical b) (h : ∀ j, coeff a j = coeff b j) : a = b := by
  rw [← ha, ← hb, canon_eq_canon_iff]
  exact h

/-- Multiplication by X shifts equal coefficients alike. -/
theorem coeff_zero_cons_congr {a b : Poly} (h : ∀ j, coeff a j = coeff b j) (j : Nat) :
    coeff (0 :: a) j = coeff (0 :: b) j := by
  cases j with
  | zero => rfl
  | succ j => exact h j

/-- Multiplication by X distributes over addition. -/
theorem coeff_zero_cons_padd (a b : Poly) (j : Nat) :
    coeff (0 :: padd a b) j = gadd (coeff (0 :: a) j) (coeff (0 :: b) j) := by
  cases j with
  | zero => exact (gadd_zero 0).symm
  | succ j => exact coeff_padd a b j

/-! ## Addition (42_polynomial.md R167 law 2) -/

theorem padd_assoc (a b c : Poly) : padd (padd a b) c = padd a (padd b c) :=
  eq_of_coeff_eq (canon_padd _ _) (canon_padd _ _) fun j => by simp only [coeff_padd, gadd_assoc]

theorem padd_self (a : Poly) : padd a a = [] :=
  (canon_eq_nil_iff _).2 fun j => by rw [coeff_sumRaw, gadd_eq_zero_iff]

/-- A polynomial added twice cancels. -/
theorem padd_padd_self {a : Poly} (ha : Canonical a) (b : Poly) : padd (padd a b) b = a := by
  rw [padd_assoc, padd_self, padd_nil ha]

/-! ## Multiplication (42_polynomial.md R167 law 3) -/

/-- The product depends on the coefficients of its first operand only. -/
theorem pmul_congr_left (t : Tables) {a a' : Poly} (h : ∀ j, coeff a j = coeff a' j) (b : Poly) :
    pmul t a b = pmul t a' b :=
  eq_of_coeff_eq (canon_pmul _ _ _) (canon_pmul _ _ _) fun j => by simp only [coeff_pmul, h]

/-- The product follows the first operand: `(x + X·a)·b = x·b + X·(a·b)`. -/
theorem coeff_pmul_cons (t : Tables) (x : Byte) (a b : Poly) (j : Nat) :
    coeff (pmul t (x :: a) b) j = gadd (gmul t x (coeff b j)) (coeff (0 :: pmul t a b) j) := by
  rw [pmul_eq_canon_convolve, coeff_canon, convolve, coeff_sumRaw, coeff_map_gmul]
  exact congrArg _ (coeff_zero_cons_congr (fun j => by rw [pmul_eq_canon_convolve, coeff_canon]) j)

theorem coeff_pmul_zero_cons (t : Tables) (a b : Poly) (j : Nat) :
    coeff (pmul t (0 :: a) b) j = coeff (0 :: pmul t a b) j := by
  rw [coeff_pmul_cons, gmul_zero_left, zero_gadd]

theorem pmul_comm (a b : Poly) : pmul builtTables a b = pmul builtTables b a := by
  refine eq_of_coeff_eq (canon_pmul _ _ _) (canon_pmul _ _ _) fun i => ?_
  rw [coeff_pmul, coeff_pmul, ← fieldSum_range_reflect]
  refine congrArg fieldSum (List.map_congr_left fun j hj => ?_)
  rw [gmul_comm, Nat.sub_sub_self (Nat.le_of_lt_succ (List.mem_range.1 hj))]

theorem pmul_padd (a b c : Poly) :
    pmul builtTables a (padd b c) = padd (pmul builtTables a b) (pmul builtTables a c) :=
  eq_of_coeff_eq (canon_pmul _ _ _) (canon_padd _ _) fun j => by
    simp only [coeff_padd, coeff_pmul, gmul_gadd, fieldSum_map_gadd]

theorem padd_pmul (a b c : Poly) :
    pmul builtTables (padd a b) c = padd (pmul builtTables a c) (pmul builtTables b c) := by
  simp only [pmul_comm _ c, pmul_padd]

/-- A constant factor moves out of the first operand. -/
theorem coeff_pmul_map_gmul (x : Byte) (a b : Poly) (i : Nat) :
    coeff (pmul builtTables (a.map (gmul builtTables x)) b) i = gmul builtTables x (coeff (pmul builtTables a b) i) := by
  rw [coeff_pmul, coeff_pmul, gmul_comm x, fieldSum_gmul, List.map_map]
  refine congrArg fieldSum (List.map_congr_left fun j _ => ?_)
  rw [coeff_map_gmul, gmul_assoc, gmul_comm x]
  rfl

/-- A first operand taken apart: its constant term and X times the rest. -/
theorem pmul_cons_eq_padd (x : Byte) (a b : Poly) :
    pmul builtTables (x :: a) b = padd (b.map (gmul builtTables x)) (0 :: pmul builtTables a b) :=
  eq_of_coeff_eq (canon_pmul _ _ _) (canon_padd _ _) fun j => by rw [coeff_pmul_cons, coeff_padd, coeff_map_gmul]

theorem pmul_assoc (a b c : Poly) :
    pmul builtTables (pmul builtTables a b) c = pmul builtTables a (pmul builtTables b c) := by
  induction a with
  | nil => rfl
  | cons x a ih =>
    refine eq_of_coeff_eq (canon_pmul _ _ _) (canon_pmul _ _ _) fun j => ?_
    rw [pmul_cons_eq_padd, padd_pmul, coeff_padd, coeff_pmul_map_gmul, coeff_pmul_zero_cons, ih, coeff_pmul_cons]

theorem pmul_one {a : Poly} (ha : Canonical a) : pmul builtTables a [1] = a := by
  rw [pmul_comm]
  refine eq_of_coeff_eq (canon_pmul _ _ _) ha fun j => ?_
  have hrest : coeff (0 :: pmul builtTables [] a) j = 0 := by cases j <;> rfl
  rw [coeff_pmul_cons, one_gmul, hrest, gadd_zero]

/-- Settles O55, each law by its own lemma. -/
theorem polynomialRingLaws : Obligations.PolynomialRingLaws := fun a b c ha _ _ =>
  ⟨padd_self a, padd_comm a b, padd_assoc a b c, padd_nil ha, pmul_comm a b, pmul_assoc a b c, pmul_one ha,
    pmul_padd a b c⟩

/-! ## Evaluation (42_polynomial.md R167 law 4) -/

theorem horner_zeros (x : Byte) (k : Nat) : horner x (List.replicate k 0) = 0 := by
  induction k with
  | zero => rfl
  | succ k ih => rw [List.replicate_succ, horner_cons, ih, gmul_zero_left, gadd_zero]

/-- Trailing zeros do not count. -/
theorem horner_canon (x : Byte) (p : Poly) : horner x (canon p) = horner x p := by
  obtain ⟨k, hk⟩ := eq_canon_append_zeros p
  have hzeros := horner_zeros x k
  conv_rhs => rw [hk, horner, List.foldr_append]
  rw [horner] at hzeros ⊢
  rw [hzeros]

theorem horner_sumRaw (x : Byte) (a b : Poly) : horner x (sumRaw a b) = gadd (horner x a) (horner x b) := by
  induction a generalizing b with
  | nil => rw [sumRaw, horner_nil, zero_gadd]
  | cons c a ih =>
    cases b with
    | nil => rw [sumRaw_nil_right, horner_nil, gadd_zero]
    | cons d b => rw [sumRaw, horner_cons, horner_cons, horner_cons, ih, gadd_gmul, gadd_gadd_gadd_comm]

theorem horner_padd (x : Byte) (a b : Poly) : horner x (padd a b) = gadd (horner x a) (horner x b) := by
  rw [padd, horner_canon, horner_sumRaw]

theorem horner_map_gmul (x c : Byte) (p : Poly) :
    horner x (p.map (gmul builtTables c)) = gmul builtTables c (horner x p) := by
  induction p with
  | nil => exact (gmul_zero_right _ c).symm
  | cons d p ih => rw [List.map_cons, horner_cons, horner_cons, ih, gmul_gadd, gmul_assoc]

theorem horner_pmul (x : Byte) (a b : Poly) :
    horner x (pmul builtTables a b) = gmul builtTables (horner x a) (horner x b) := by
  rw [pmul_eq_canon_convolve, horner_canon]
  induction a with
  | nil => exact (gmul_zero_left _ _).symm
  | cons c a ih =>
    rw [convolve, horner_sumRaw, horner_map_gmul, horner_cons, horner_cons, ih, zero_gadd, gadd_gmul, gmul_assoc,
      gmul_assoc, gmul_comm x]

/-- Settles O56: both operations, under Horner's scheme. -/
theorem evaluationIsHomomorphism : Obligations.EvaluationIsHomomorphism := by
  intro a c x _ _
  simp only [peval_eq_horner]
  exact ⟨horner_padd x a c, horner_pmul x a c⟩

/-! ## The derivative (42_polynomial.md R167 law 5) -/

theorem pder_padd (a b : Poly) : pder (padd a b) = padd (pder a) (pder b) := by
  refine eq_of_coeff_eq (canon_pder _) (canon_padd _ _) fun j => ?_
  simp only [coeff_padd, coeff_pder]
  split
  · rfl
  · rfl

/-- `(x + X·a)' = a + X·a'`. -/
theorem coeff_pder_cons (x : Byte) (a : Poly) (j : Nat) :
    coeff (pder (x :: a)) j = gadd (coeff a j) (coeff (0 :: pder a) j) := by
  rw [coeff_pder, coeff_cons_succ]
  cases j with
  | zero => exact (gadd_zero _).symm
  | succ j =>
    rw [coeff_cons_succ, coeff_pder]
    obtain h | h := Nat.mod_two_eq_zero_or_one j
    · rw [if_neg (by omega), if_pos (by omega), (gadd_eq_zero_iff _ _).2 rfl]
    · rw [if_pos (by omega), if_neg (by omega), gadd_zero]

/-- A constant factor moves out of the derivative. -/
theorem coeff_pder_map_gmul (x : Byte) (a : Poly) (j : Nat) :
    coeff (pder (a.map (gmul builtTables x))) j = gmul builtTables x (coeff (pder a) j) := by
  rw [coeff_pder, coeff_pder, coeff_map_gmul]
  split
  · rfl
  · exact (gmul_zero_right _ x).symm

/-- The product with a derivative taken apart. -/
theorem coeff_pmul_pder_cons (x : Byte) (a b : Poly) (j : Nat) :
    coeff (pmul builtTables (pder (x :: a)) b) j =
      gadd (coeff (pmul builtTables a b) j) (coeff (0 :: pmul builtTables (pder a) b) j) := by
  rw [pmul_congr_left _ (a' := padd a (0 :: pder a)) (fun j => by rw [coeff_pder_cons, coeff_padd]), padd_pmul,
    coeff_padd, coeff_pmul_zero_cons]

/-- The product rule, along the first operand. -/
theorem pder_pmul (a b : Poly) :
    pder (pmul builtTables a b) = padd (pmul builtTables (pder a) b) (pmul builtTables a (pder b)) := by
  induction a with
  | nil => rfl
  | cons x a ih =>
    refine eq_of_coeff_eq (canon_pder _) (canon_padd _ _) fun j => ?_
    calc coeff (pder (pmul builtTables (x :: a) b)) j
        = gadd (gmul builtTables x (coeff (pder b) j))
            (gadd (coeff (pmul builtTables a b) j) (coeff (0 :: pder (pmul builtTables a b)) j)) := by
          rw [pmul_cons_eq_padd, pder_padd, coeff_padd, coeff_pder_map_gmul, coeff_pder_cons]
      _ = gadd (gmul builtTables x (coeff (pder b) j)) (gadd (coeff (pmul builtTables a b) j)
            (gadd (coeff (0 :: pmul builtTables (pder a) b) j) (coeff (0 :: pmul builtTables a (pder b)) j))) := by
          rw [ih, coeff_zero_cons_padd]
      _ = gadd (gadd (coeff (pmul builtTables a b) j) (coeff (0 :: pmul builtTables (pder a) b) j))
            (gadd (gmul builtTables x (coeff (pder b) j)) (coeff (0 :: pmul builtTables a (pder b)) j)) := by
          unfold gadd
          ac_rfl
      _ = coeff (padd (pmul builtTables (pder (x :: a)) b) (pmul builtTables (x :: a) (pder b))) j := by
          rw [coeff_padd, coeff_pmul_pder_cons, coeff_pmul_cons]

/-- Settles O57: the sum coefficient by coefficient, the product along its first operand. -/
theorem derivativeLaws : Obligations.DerivativeLaws := fun a c _ _ => ⟨pder_padd a c, pder_pmul a c⟩

/-! ## Euclidean division (42_polynomial.md R155, R167 law 1) -/

/-- The passes keep `q·b + r`: what a pass adds to q·b it subtracts from r. -/
theorem pdivLoop_invariant (b : Poly) (c : Byte) (fuel : Nat) (q r : Poly) :
    padd (pmul builtTables (pdivLoop builtTables b c fuel q r).1 b) (pdivLoop builtTables b c fuel q r).2 =
      padd (pmul builtTables q b) r := by
  induction fuel generalizing q r with
  | zero => rfl
  | succ fuel ih =>
    rw [pdivLoop]
    split
    · rw [ih, padd_pmul]
      refine eq_of_coeff_eq (canon_padd _ _) (canon_padd _ _) fun j => ?_
      simp only [coeff_padd, gadd_gadd_cancel_right]
    · rfl

/-- The passes keep quotient and remainder canonical. -/
theorem canonical_pdivLoop (t : Tables) (b : Poly) (c : Byte) (fuel : Nat) {q r : Poly} (hq : Canonical q)
    (hr : Canonical r) :
    Canonical (pdivLoop t b c fuel q r).1 ∧ Canonical (pdivLoop t b c fuel q r).2 := by
  induction fuel generalizing q r with
  | zero => exact ⟨hq, hr⟩
  | succ fuel ih =>
    rw [pdivLoop]
    split
    · exact ih (canon_padd _ _) (canon_padd _ _)
    · exact ⟨hq, hr⟩

/-- a = q·b + r. -/
theorem pmul_pdivmod_padd {a : Poly} (ha : Canonical a) (b : Poly) :
    padd (pmul builtTables (pdivmod builtTables a b).1 b) (pdivmod builtTables a b).2 = a :=
  (pdivLoop_invariant b _ _ [] a).trans ((padd_comm [] a).trans (padd_nil ha))

/-- The length of the quotient, from the degrees in a = q·b + r: those of q and b add up, and r stays below b. -/
theorem quotient_length {a b q r : Poly} (hb : Canonical b) (hne : b ≠ []) (hq : Canonical q) (hr : Canonical r)
    (he : padd (pmul builtTables q b) r = a) (hlt : r.length < b.length) : q.length = a.length + 1 - b.length := by
  subst he
  obtain rfl | hqne := eq_or_ne q []
  · have hr' : padd (pmul builtTables [] b) r = r := (padd_comm [] r).trans (padd_nil hr)
    rw [hr', List.length_nil]
    omega
  · have hlen := pmul_length hq hb hqne hne
    have hpos := List.length_pos_iff.2 hqne
    rw [padd_comm, padd_length_of_lt (canon_pmul _ _ _) (by omega), hlen]
    omega

/-- Settles O54: the passes keep q·b + r, shorten r below b, and the degrees give the length of q. -/
theorem euclideanDivisionIsExact : Obligations.EuclideanDivisionIsExact := by
  intro a b q r ha hb hne h
  have hex := pmul_pdivmod_padd ha b
  have hlt := pdivmod_remainder_length_lt ha hb hne
  obtain ⟨hq, hr⟩ : Canonical (pdivmod builtTables a b).1 ∧ Canonical (pdivmod builtTables a b).2 :=
    canonical_pdivLoop _ b _ _ canon_nil ha
  rw [h] at hex hlt hq hr
  exact ⟨hex, hlt, hq, hr, quotient_length hb hne hq hr hex hlt⟩

end Sys2Proof.Machine

/-! PROOFS. The laws of the Reed–Solomon derivations (43_rs_derivations.md R197): the roots of the generator polynomials,
the syndromes of systematic codewords, and the location of a single error. -/

namespace Sys2Proof.Machine

/-! ## The generator polynomials (43_rs_derivations.md R190, R197 laws 1 and 2) -/

theorem generator_length (n : Nat) : (generator builtTables n).length = n + 1 := by
  refine Nat.le_antisymm (generator_length_le _ n) (lt_length_of_coeff_ne_zero ?_)
  rw [coeff_generator_top]
  decide

theorem leading_generator (n : Nat) : leading (generator builtTables n) = 1 := by
  rw [leading_eq_coeff, generator_length, Nat.add_sub_cancel, coeff_generator_top]

/-- The value of the factor `x + u`. -/
theorem horner_linear (u v : Byte) : horner v [u, 1] = gadd u v := by
  rw [horner_cons, horner_cons, horner_nil, gmul_zero_left, gadd_zero, one_gmul]

/-- The roots of a generator polynomial are those of its factors, for there are no zero divisors. -/
theorem peval_generator_eq_zero_iff (n : Nat) (v : Byte) :
    peval builtTables (generator builtTables n) v = 0 ↔ ∃ i, 1 ≤ i ∧ i ≤ n ∧ v = gpow builtTables 2 i := by
  rw [peval_eq_horner]
  induction n with
  | zero =>
    have hone : horner v (generator builtTables 0) = 1 := by
      rw [generator, horner_cons, horner_nil, gmul_zero_left, gadd_zero]
    rw [hone]
    exact iff_of_false (by decide) fun ⟨i, hpos, hle, _⟩ => by omega
  | succ n ih =>
    rw [generator, Config.gen, horner_pmul, gmul_eq_zero_iff, ih, horner_linear, gadd_eq_zero_iff, eq_comm (b := v)]
    constructor
    · rintro (⟨i, hpos, hle, hv⟩ | hv)
      · exact ⟨i, hpos, Nat.le_succ_of_le hle, hv⟩
      · exact ⟨n + 1, n.succ_pos, le_rfl, hv⟩
    · rintro ⟨i, hpos, hle, hv⟩
      obtain rfl | hlt := hle.eq_or_lt
      · exact .inr hv
      · exact .inl ⟨i, hpos, Nat.le_of_lt_succ hlt, hv⟩

/-- Settles O58; the roots are those of the linear factors, for every n. -/
theorem generatorRoots : Obligations.GeneratorRoots := fun n =>
  ⟨generator_length n, leading_generator n, fun _ => peval_generator_eq_zero_iff n⟩

/-! ## Systematic codewords (43_rs_derivations.md R197 law 3) -/

/-- A polynomial plus its remainder modulo b is a multiple of b. -/
theorem padd_remainder_eq_pmul {a : Poly} (ha : Canonical a) (b : Poly) :
    padd a (pdivmod builtTables a b).2 = pmul builtTables (pdivmod builtTables a b).1 b := by
  have hexact := pmul_pdivmod_padd ha b
  calc padd a (pdivmod builtTables a b).2
      = padd (padd (pmul builtTables (pdivmod builtTables a b).1 b) (pdivmod builtTables a b).2)
          (pdivmod builtTables a b).2 := by rw [hexact]
    _ = pmul builtTables (pdivmod builtTables a b).1 b := padd_padd_self (canon_pmul _ _ _) _

/-- A multiple of generator(k) has k zero syndromes: 2^1..2^k are roots of the generator. -/
theorem syndromes_pmul_generator (h : Poly) (k : Nat) :
    syndromes builtTables (pmul builtTables h (generator builtTables k)) k = [] := by
  rw [syndromes_eq_nil_iff]
  intro i hpos hle
  have hroot := (peval_generator_eq_zero_iff k _).2 ⟨i, hpos, hle, rfl⟩
  rw [peval_eq_horner] at hroot ⊢
  rw [horner_pmul, hroot, gmul_zero_right]

/-- Settles O59: the codeword is the quotient times the generator. -/
theorem systematicCodewordsHaveZeroSyndromes : Obligations.SystematicCodewordsHaveZeroSyndromes := by
  intro m c k _ hc
  have hmul := hc.trans (padd_remainder_eq_pmul (canon_pmul _ _ _) _)
  exact ⟨hmul ▸ syndromes_pmul_generator _ k, _, hmul⟩

/-! ## A single error (43_rs_derivations.md R197 law 4) -/

/-- The value of a monomial at a power of 2. -/
theorem horner_monomial (i j : Nat) (e : Byte) :
    horner (genPow i) (monomial j e) = gmul builtTables e (genPow (i * j)) := by
  induction j with
  | zero =>
    have hconst : monomial 0 e = [e] := rfl
    rw [hconst, horner_cons, horner_nil, gmul_zero_left, gadd_zero, Nat.mul_zero, genPow_zero, gmul_one]
  | succ j ih =>
    have hcons : monomial (j + 1) e = 0 :: monomial j e := rfl
    rw [hcons, horner_cons, zero_gadd, ih, gmul_assoc, gmul_genPow, Nat.mul_succ]

/-- The syndrome of a word with one error, at a point where the word itself has the value 0. -/
theorem peval_padd_monomial {c : Poly} {i : Nat} (h : peval builtTables c (gpow builtTables 2 i) = 0) (j : Nat)
    (e : Byte) :
    peval builtTables (padd c (monomial j e)) (gpow builtTables 2 i) =
      gmul builtTables e (gpow builtTables 2 (i * j)) := by
  rw [peval_eq_horner] at h ⊢
  rw [horner_padd, h, zero_gadd, gpow_two, gpow_two, horner_monomial]

/-- A polynomial with exactly one root has it alone in its list of roots. -/
theorem roots_eq_singleton {t : Tables} {p : Poly} {u : Byte} (h : ∀ v, peval t p v = 0 ↔ v = u) : roots t p = [u] := by
  have hnodup : (roots t p).Nodup := by
    refine List.Nodup.filter _ (List.nodup_range.map_on fun i hi j hj hij => ?_)
    have hval := congrArg BitVec.toNat hij
    rw [BitVec.toNat_ofNat, BitVec.toNat_ofNat] at hval
    rwa [Nat.mod_eq_of_lt (List.mem_range.1 hi), Nat.mod_eq_of_lt (List.mem_range.1 hj)] at hval
  refine List.perm_singleton.1 ((List.perm_ext_iff_of_nodup hnodup (List.nodup_singleton u)).2 fun v => ?_)
  rw [mem_roots_iff, h, List.mem_singleton]

/-- The one root of `1 + X·x` is the inverse of X. -/
theorem peval_locator_eq_zero_iff {X : Byte} (hX : X ≠ 0) (v : Byte) :
    peval builtTables [1, X] v = 0 ↔ v = gdiv builtTables 1 X := by
  have hval : peval builtTables [1, X] v = gadd 1 (gmul builtTables v X) := by
    rw [peval_eq_horner, horner_cons, horner_cons, horner_nil, gmul_zero_left, gadd_zero, gmul_comm]
  rw [hval, gadd_eq_zero_iff]
  constructor
  · intro h
    rw [h, gdiv_gmul_cancel v hX]
  · rintro rfl
    exact (gmul_gdiv_cancel 1 hX).symm

/-- Settles O60: the syndromes are the values of the error alone, and 2^(2j) is the square of 2^j. -/
theorem singleErrorIsLocated : Obligations.SingleErrorIsLocated := by
  intro c e j t _ he _ hsyn
  have hsynd (i : Nat) (hpos : 1 ≤ i) (hle : i ≤ t) :=
    peval_padd_monomial ((syndromes_eq_nil_iff _ c t).1 hsyn i hpos hle) j e
  refine ⟨hsynd, fun ht => ?_⟩
  have hX : gpow builtTables 2 j ≠ 0 := by rw [gpow_two]; exact genPow_ne_zero j
  have hfirst : gmul builtTables e (gpow builtTables 2 j) ≠ 0 := fun h =>
    ((gmul_eq_zero_iff _ _).1 h).elim he hX
  have hsecond : gmul builtTables e (gpow builtTables 2 (2 * j)) =
      gmul builtTables (gpow builtTables 2 j) (gmul builtTables e (gpow builtTables 2 j)) := by
    rw [← gmul_assoc, gmul_comm _ e, gmul_assoc]
    simp only [gpow_two, gmul_genPow, Nat.two_mul]
  rw [hsynd 2 (by decide) ht, hsynd 1 le_rfl (Nat.le_of_succ_le ht), Nat.one_mul, hsecond]
  exact ⟨gdiv_gmul_cancel _ hfirst, gdiv_gmul_cancel e hX, roots_eq_singleton (peval_locator_eq_zero_iff hX)⟩

end Sys2Proof.Machine
